-- ==== Sys2Proof/Word.lean ====
section
/-! DEFINITION. The word types of the machine (00_scope.md R6, R10). -/

namespace Sys2Proof

/-- A u8: register contents, memory bytes, instruction bytes (R10). -/
abbrev Byte := BitVec 8

/-- A u16: CPU addresses and the program counter (R6); all sums wrap modulo 65536 (D8). -/
abbrev Addr := BitVec 16

/-- A 15-bit "loopy" VRAM address: coarseX 4:0, coarseY 9:5, nametableX 10, nametableY 11,
fineY 14:12 (10_state.md R43). -/
abbrev Loopy := BitVec 15

/-- The colour index of one pixel: a 6-bit palette value, 0..63 (10_state.md R50). -/
abbrev Colour := BitVec 6

end Sys2Proof
end

