-- ==== Sys2Proof/Config.lean ====
section
/-! DEFINITION. The launch parameters of 00_scope.md R7 that stay fixed for a run, and the names of the
12 addressing modes, which one of the parameters (`UNOFFICIAL_TABLE`) needs. The parameters are held in
State as plain data that no step changes, so a statement over every state holds for every parameter
value; `Config.default` has the defaults of R7. -/

namespace Sys2Proof

/-- The 12 addressing modes (40_addressing_modes.md R150 to R161), by the spec's three-letter names. -/
inductive Mode where
  | IMP | IMM | ZP0 | ZPX | ZPY | REL | ABS | ABX | ABY | IND | IZX | IZY
  deriving DecidableEq, Repr

/-- The two operations an unofficial opcode byte may have (30_encoding.md R127). -/
inductive PlaceholderOp where
  | xxx | nop
  deriving DecidableEq, Repr

/-- The descriptor of one unofficial opcode byte: operation, mode, base cycles (R7, R127). -/
structure UnofficialEntry where
  op : PlaceholderOp
  mode : Mode
  base : Nat
  deriving DecidableEq, Repr

/-- Nametable mirroring, the launch constant `MIRROR` (R7). -/
inductive Mirroring where
  | horizontal | vertical
  deriving DecidableEq, Repr

/-- The program bank count of mapper 0, `PRG_BANKS` in {1, 2} (R7). -/
inductive PrgBanks where
  | one | two
  deriving DecidableEq, Repr

/-- `BRK_RETURN_OFFSET` in {2, 3} (R7, D6). -/
inductive BrkReturnOffset where
  | two | three
  deriving DecidableEq, Repr

/-- The launch constants of a run (R7). `unofficial` lists the entries of `UNOFFICIAL_TABLE` that differ
from the default table of R127; entries for official bytes are never consulted. -/
structure Config where
  prgBanks : PrgBanks
  mirror : Mirroring
  unofficial : List (Byte × UnofficialEntry)
  brkReturnOffset : BrkReturnOffset
  prgWritable : Bool
  chrWritable : Bool
  ctrlWriteCopiesNt : Bool
  ppuShiftEveryDot : Bool
  ppuClearVblankAtPrerender : Bool
  deriving DecidableEq, Repr

/-- The defaults of R7. `PRG_BANKS` and `MIRROR` have none there; one bank and horizontal mirroring are
this model's DESIGN CHOICE (log 1). -/
def Config.default : Config where
  prgBanks := .one
  mirror := .horizontal
  unofficial := []
  brkReturnOffset := .two
  prgWritable := false
  chrWritable := false
  ctrlWriteCopiesNt := true
  ppuShiftEveryDot := true
  ppuClearVblankAtPrerender := true

/-- The value space of `UNOFFICIAL_TABLE` (93_implementation_defined.md U1): base cycles 1..8. -/
def Config.valid (c : Config) : Bool :=
  c.unofficial.all fun e => decide (1 ≤ e.2.base ∧ e.2.base ≤ 8)

end Sys2Proof
end

