-- ==== Sys2Proof/Syntax.lean ====
section
/-! DEFINITION. The instructions as syntax: the operand forms of the 12 addressing modes, and one
constructor of `Instr` per mnemonic of the opcode table. A row of spec/opcode_table.json is a constructor
at one operand form; the 105 rows named ??? are the last two constructors at their opcode byte. -/

namespace Sys2Proof

/-- An operand as the instruction's bytes give it (30_encoding.md R122). The mode IMM has two forms: `imm`,
whose byte the operation reads, and `pad`, whose byte is skipped and never read (R151: BRK, and an
unofficial byte to which `UNOFFICIAL_TABLE` gives IMM). -/
inductive Operand where
  | imp
  | imm (b : Byte)
  | pad
  | zp0 (b : Byte)
  | zpx (b : Byte)
  | zpy (b : Byte)
  | rel (b : Byte)
  | abs (w : Addr)
  | abx (w : Addr)
  | aby (w : Addr)
  | ind (w : Addr)
  | izx (b : Byte)
  | izy (b : Byte)
  deriving DecidableEq, Repr

/-- The addressing mode of an operand form. -/
def Operand.mode : Operand → Mode
  | .imp => .IMP
  | .imm _ => .IMM
  | .pad => .IMM
  | .zp0 _ => .ZP0
  | .zpx _ => .ZPX
  | .zpy _ => .ZPY
  | .rel _ => .REL
  | .abs _ => .ABS
  | .abx _ => .ABX
  | .aby _ => .ABY
  | .ind _ => .IND
  | .izx _ => .IZX
  | .izy _ => .IZY

/-- The instructions: the 56 official mnemonics (30_encoding.md R125) and the two placeholder operations
of the 105 unofficial bytes (R127). -/
inductive Instr where
  -- 41_load_store_transfer.md
  | lda (o : Operand)
  | ldx (o : Operand)
  | ldy (o : Operand)
  | sta (o : Operand)
  | stx (o : Operand)
  | sty (o : Operand)
  | tax
  | tay
  | txa
  | tya
  | tsx
  | txs
  -- 42_arithmetic_logic.md
  | adc (o : Operand)
  | sbc (o : Operand)
  | and (o : Operand)
  | ora (o : Operand)
  | eor (o : Operand)
  | bit (o : Operand)
  | cmp (o : Operand)
  | cpx (o : Operand)
  | cpy (o : Operand)
  | inc (o : Operand)
  | dec (o : Operand)
  | inx
  | iny
  | dex
  | dey
  -- 43_shift_rotate.md
  | asl (o : Operand)
  | lsr (o : Operand)
  | rol (o : Operand)
  | ror (o : Operand)
  -- 44_branch_jump.md
  | bcc (off : Byte)
  | bcs (off : Byte)
  | beq (off : Byte)
  | bne (off : Byte)
  | bmi (off : Byte)
  | bpl (off : Byte)
  | bvc (off : Byte)
  | bvs (off : Byte)
  | jmp (o : Operand)
  | jsr (target : Addr)
  | rts
  -- 45_stack_flags_system.md
  | pha
  | php
  | pla
  | plp
  | clc
  | sec
  | cli
  | sei
  | cld
  | sed
  | clv
  | nop
  | brk
  | rti
  -- the placeholders of the unofficial bytes (30_encoding.md R127)
  | xxx (opcode : Byte) (o : Operand)
  | unofficialNop (opcode : Byte) (o : Operand)
  deriving DecidableEq, Repr

end Sys2Proof
end

