-- ==== Sys2Proof/WellFormed.lean ====
section
/-! DEFINITION. Which instructions exist: the addressing modes each mnemonic has (the "Encodings" lines of
files 41 to 45), and the unofficial bytes of 30_encoding.md R127. -/

namespace Sys2Proof

/-- The eight modes of LDA ADC SBC AND ORA EOR CMP (R170, R193 to R197, R199). -/
def readModes : List Mode := [.IMM, .ZP0, .ZPX, .ABS, .ABX, .ABY, .IZX, .IZY]

/-- The memory modes of INC and DEC (R202, R203); the shifts have IMP as well (R220). -/
def rmwModes : List Mode := [.ZP0, .ZPX, .ABS, .ABX]

/-- An operand form that the mnemonic has: its mode is listed, and an immediate operand is one that is read. -/
def Operand.among (o : Operand) (ms : List Mode) : Bool :=
  decide (o ≠ .pad) && ms.contains o.mode

/-- The 28 unofficial bytes whose operation is NOP by default (R127). -/
def placeholderNopBytes : List Byte :=
  [0x04, 0x0C, 0x14, 0x1A, 0x1C, 0x34, 0x3A, 0x3C, 0x44, 0x54, 0x5A, 0x5C, 0x64, 0x74] ++
  [0x7A, 0x7C, 0x80, 0x82, 0x89, 0x9C, 0xC2, 0xD4, 0xDA, 0xDC, 0xE2, 0xF4, 0xFA, 0xFC]

/-- The 77 unofficial bytes whose operation is XXX by default (R127). -/
def placeholderXxxBytes : List Byte :=
  [0x02, 0x03, 0x07, 0x0B, 0x0F, 0x12, 0x13, 0x17, 0x1B, 0x1F, 0x22, 0x23, 0x27, 0x2B, 0x2F] ++
  [0x32, 0x33, 0x37, 0x3B, 0x3F, 0x42, 0x43, 0x47, 0x4B, 0x4F, 0x52, 0x53, 0x57, 0x5B, 0x5F] ++
  [0x62, 0x63, 0x67, 0x6B, 0x6F, 0x72, 0x73, 0x77, 0x7B, 0x7F, 0x83, 0x87, 0x8B, 0x8F] ++
  [0x92, 0x93, 0x97, 0x9B, 0x9E, 0x9F, 0xA3, 0xA7, 0xAB, 0xAF, 0xB2, 0xB3, 0xB7, 0xBB, 0xBF] ++
  [0xC3, 0xC7, 0xCB, 0xCF, 0xD2, 0xD3, 0xD7, 0xDB, 0xDF, 0xE3, 0xE7, 0xEB, 0xEF] ++
  [0xF2, 0xF3, 0xF7, 0xFB, 0xFF]

/-- An unofficial byte: one of the 105 of R127. -/
def isUnofficial (b : Byte) : Bool :=
  placeholderNopBytes.contains b || placeholderXxxBytes.contains b

/-- The operation and mode that the table of the run gives the unofficial byte `b`: the entry of
`Config.unofficial`, or the default (mode IMP, operation by the two lists above). -/
def Config.placeholderShape (c : Config) (b : Byte) : PlaceholderOp × Mode :=
  match c.unofficial.lookup b with
  | some e => (e.op, e.mode)
  | none => (if placeholderNopBytes.contains b then .nop else .xxx, .IMP)

/-- The placeholder instruction of byte `b` with operand `o` exists: `b` is unofficial, its table entry has
this operation and mode, and an IMM byte is one that is skipped, since neither operation reads it (U2). -/
def Config.placeholderExists (c : Config) (op : PlaceholderOp) (b : Byte) (o : Operand) : Bool :=
  isUnofficial b && decide (c.placeholderShape b = (op, o.mode)) &&
    match o with
    | .imm _ => false
    | _ => true

/-- The instruction exists in a run with launch constants `c`. -/
def Instr.wellFormedIn (c : Config) : Instr → Bool
  | .lda o => o.among readModes
  | .ldx o => o.among [.IMM, .ZP0, .ZPY, .ABS, .ABY]
  | .ldy o => o.among [.IMM, .ZP0, .ZPX, .ABS, .ABX]
  | .sta o => o.among [.ZP0, .ZPX, .ABS, .ABX, .ABY, .IZX, .IZY]
  | .stx o => o.among [.ZP0, .ZPY, .ABS]
  | .sty o => o.among [.ZP0, .ZPX, .ABS]
  | .tax => true
  | .tay => true
  | .txa => true
  | .tya => true
  | .tsx => true
  | .txs => true
  | .adc o => o.among readModes
  | .sbc o => o.among readModes
  | .and o => o.among readModes
  | .ora o => o.among readModes
  | .eor o => o.among readModes
  | .bit o => o.among [.ZP0, .ABS]
  | .cmp o => o.among readModes
  | .cpx o => o.among [.IMM, .ZP0, .ABS]
  | .cpy o => o.among [.IMM, .ZP0, .ABS]
  | .inc o => o.among rmwModes
  | .dec o => o.among rmwModes
  | .inx => true
  | .iny => true
  | .dex => true
  | .dey => true
  | .asl o => o.among (.IMP :: rmwModes)
  | .lsr o => o.among (.IMP :: rmwModes)
  | .rol o => o.among (.IMP :: rmwModes)
  | .ror o => o.among (.IMP :: rmwModes)
  | .bcc _ => true
  | .bcs _ => true
  | .beq _ => true
  | .bne _ => true
  | .bmi _ => true
  | .bpl _ => true
  | .bvc _ => true
  | .bvs _ => true
  | .jmp o => o.among [.ABS, .IND]
  | .jsr _ => true
  | .rts => true
  | .pha => true
  | .php => true
  | .pla => true
  | .plp => true
  | .clc => true
  | .sec => true
  | .cli => true
  | .sei => true
  | .cld => true
  | .sed => true
  | .clv => true
  | .nop => true
  | .brk => true
  | .rti => true
  | .xxx b o => c.placeholderExists .xxx b o
  | .unofficialNop b o => c.placeholderExists .nop b o

/-- The instruction exists under the default `UNOFFICIAL_TABLE` (R127). -/
def Instr.wellFormed (i : Instr) : Bool := i.wellFormedIn Config.default

end Sys2Proof
end

