-- ==== Sys2Proof/Decode.lean ====
section
/-! DEFINITION. From bytes to instructions and back (30_encoding.md). Decoding is the 256-way table lookup of
R123: the matrices of R124 and R127, one descriptor a byte. The encoder is written from the other place the
spec gives the encodings, the "Encodings" line of each instruction's own rule, so that the round trip
compares the two. -/

namespace Sys2Proof

/-- The number of operand bytes of a mode (R121). -/
def Mode.operandBytes : Mode → Nat
  | .IMP => 0
  | .IMM | .ZP0 | .ZPX | .ZPY | .REL | .IZX | .IZY => 1
  | .ABS | .ABX | .ABY | .IND => 2

/-- A little-endian word from its two bytes (R100, R122). -/
def wordOf (lo hi : Byte) : Addr := hi ++ lo

/-- The low byte of a word. -/
def lowByte (w : Addr) : Byte := w.truncate 8

/-- The high byte of a word. -/
def highByte (w : Addr) : Byte := (w >>> 8).truncate 8

/-- Operand assembly (R122): the operand form of a mode from its operand bytes; a byte the mode does not
have is ignored. -/
def operandOf (m : Mode) (b1 b2 : Byte) : Operand :=
  match m with
  | .IMP => .imp
  | .IMM => .imm b1
  | .ZP0 => .zp0 b1
  | .ZPX => .zpx b1
  | .ZPY => .zpy b1
  | .REL => .rel b1
  | .ABS => .abs (wordOf b1 b2)
  | .ABX => .abx (wordOf b1 b2)
  | .ABY => .aby (wordOf b1 b2)
  | .IND => .ind (wordOf b1 b2)
  | .IZX => .izx b1
  | .IZY => .izy b1

/-- The operand of a placeholder: as `operandOf`, but an IMM byte is skipped, not read (U2, R151). -/
def unreadOperandOf (m : Mode) (b1 b2 : Byte) : Operand :=
  match m with
  | .IMM => .pad
  | _ => operandOf m b1 b2

/-- A table entry (R123): the addressing mode, the base cycle count, the instruction its operand bytes
make, and whether the operation reads an IMM operand byte (all do but BRK and the placeholders, R151). -/
structure Descriptor where
  mode : Mode
  base : Nat
  build : Byte → Byte → Instr
  readsImm : Bool

/-- An entry whose operation takes an operand form. -/
def cOp (op : Operand → Instr) (m : Mode) (base : Nat) : Option Descriptor :=
  some ⟨m, base, fun b1 b2 => op (operandOf m b1 b2), true⟩

/-- An implied entry. -/
def cImp (i : Instr) (base : Nat) : Option Descriptor :=
  some ⟨.IMP, base, fun _ _ => i, true⟩

/-- A branch entry, mode REL. -/
def cRel (op : Byte → Instr) (base : Nat) : Option Descriptor :=
  some ⟨.REL, base, fun b1 _ => op b1, true⟩

/-- The entry of JSR, mode ABS. -/
def cCall (op : Addr → Instr) (base : Nat) : Option Descriptor :=
  some ⟨.ABS, base, fun b1 b2 => op (wordOf b1 b2), true⟩

/-- The entry of BRK: mode IMM, the operand byte is skipped and never read (R151, R262). -/
def cPad (i : Instr) (base : Nat) : Option Descriptor :=
  some ⟨.IMM, base, fun _ _ => i, false⟩

/-! The matrix of the official opcodes (R124): rows by the high nibble, columns by the low nibble; `none`
is an unofficial byte. -/

/-- Bytes 0x00 to 0x0F. -/
def officialRow0 : List (Option Descriptor) :=
  [cPad .brk 7, cOp .ora .IZX 6, none, none, none, cOp .ora .ZP0 3,
   cOp .asl .ZP0 5, none, cImp .php 3, cOp .ora .IMM 2, cOp .asl .IMP 2,
   none, none, cOp .ora .ABS 4, cOp .asl .ABS 6, none]

/-- Bytes 0x10 to 0x1F. -/
def officialRow1 : List (Option Descriptor) :=
  [cRel .bpl 2, cOp .ora .IZY 5, none, none, none, cOp .ora .ZPX 4,
   cOp .asl .ZPX 6, none, cImp .clc 2, cOp .ora .ABY 4, none,
   none, none, cOp .ora .ABX 4, cOp .asl .ABX 7, none]

/-- Bytes 0x20 to 0x2F. -/
def officialRow2 : List (Option Descriptor) :=
  [cCall .jsr 6, cOp .and .IZX 6, none, none, cOp .bit .ZP0 3, cOp .and .ZP0 3,
   cOp .rol .ZP0 5, none, cImp .plp 4, cOp .and .IMM 2, cOp .rol .IMP 2,
   none, cOp .bit .ABS 4, cOp .and .ABS 4, cOp .rol .ABS 6, none]

/-- Bytes 0x30 to 0x3F. -/
def officialRow3 : List (Option Descriptor) :=
  [cRel .bmi 2, cOp .and .IZY 5, none, none, none, cOp .and .ZPX 4,
   cOp .rol .ZPX 6, none, cImp .sec 2, cOp .and .ABY 4, none,
   none, none, cOp .and .ABX 4, cOp .rol .ABX 7, none]

/-- Bytes 0x40 to 0x4F. -/
def officialRow4 : List (Option Descriptor) :=
  [cImp .rti 6, cOp .eor .IZX 6, none, none, none, cOp .eor .ZP0 3,
   cOp .lsr .ZP0 5, none, cImp .pha 3, cOp .eor .IMM 2, cOp .lsr .IMP 2,
   none, cOp .jmp .ABS 3, cOp .eor .ABS 4, cOp .lsr .ABS 6, none]

/-- Bytes 0x50 to 0x5F. -/
def officialRow5 : List (Option Descriptor) :=
  [cRel .bvc 2, cOp .eor .IZY 5, none, none, none, cOp .eor .ZPX 4,
   cOp .lsr .ZPX 6, none, cImp .cli 2, cOp .eor .ABY 4, none,
   none, none, cOp .eor .ABX 4, cOp .lsr .ABX 7, none]

/-- Bytes 0x60 to 0x6F. -/
def officialRow6 : List (Option Descriptor) :=
  [cImp .rts 6, cOp .adc .IZX 6, none, none, none, cOp .adc .ZP0 3,
   cOp .ror .ZP0 5, none, cImp .pla 4, cOp .adc .IMM 2, cOp .ror .IMP 2,
   none, cOp .jmp .IND 5, cOp .adc .ABS 4, cOp .ror .ABS 6, none]

/-- Bytes 0x70 to 0x7F. -/
def officialRow7 : List (Option Descriptor) :=
  [cRel .bvs 2, cOp .adc .IZY 5, none, none, none, cOp .adc .ZPX 4,
   cOp .ror .ZPX 6, none, cImp .sei 2, cOp .adc .ABY 4, none,
   none, none, cOp .adc .ABX 4, cOp .ror .ABX 7, none]

/-- Bytes 0x80 to 0x8F. -/
def officialRow8 : List (Option Descriptor) :=
  [none, cOp .sta .IZX 6, none, none, cOp .sty .ZP0 3, cOp .sta .ZP0 3,
   cOp .stx .ZP0 3, none, cImp .dey 2, none, cImp .txa 2,
   none, cOp .sty .ABS 4, cOp .sta .ABS 4, cOp .stx .ABS 4, none]

/-- Bytes 0x90 to 0x9F. -/
def officialRow9 : List (Option Descriptor) :=
  [cRel .bcc 2, cOp .sta .IZY 6, none, none, cOp .sty .ZPX 4, cOp .sta .ZPX 4,
   cOp .stx .ZPY 4, none, cImp .tya 2, cOp .sta .ABY 5, cImp .txs 2,
   none, none, cOp .sta .ABX 5, none, none]

/-- Bytes 0xA0 to 0xAF. -/
def officialRowA : List (Option Descriptor) :=
  [cOp .ldy .IMM 2, cOp .lda .IZX 6, cOp .ldx .IMM 2, none, cOp .ldy .ZP0 3, cOp .lda .ZP0 3,
   cOp .ldx .ZP0 3, none, cImp .tay 2, cOp .lda .IMM 2, cImp .tax 2,
   none, cOp .ldy .ABS 4, cOp .lda .ABS 4, cOp .ldx .ABS 4, none]

/-- Bytes 0xB0 to 0xBF. -/
def officialRowB : List (Option Descriptor) :=
  [cRel .bcs 2, cOp .lda .IZY 5, none, none, cOp .ldy .ZPX 4, cOp .lda .ZPX 4,
   cOp .ldx .ZPY 4, none, cImp .clv 2, cOp .lda .ABY 4, cImp .tsx 2,
   none, cOp .ldy .ABX 4, cOp .lda .ABX 4, cOp .ldx .ABY 4, none]

/-- Bytes 0xC0 to 0xCF. -/
def officialRowC : List (Option Descriptor) :=
  [cOp .cpy .IMM 2, cOp .cmp .IZX 6, none, none, cOp .cpy .ZP0 3, cOp .cmp .ZP0 3,
   cOp .dec .ZP0 5, none, cImp .iny 2, cOp .cmp .IMM 2, cImp .dex 2,
   none, cOp .cpy .ABS 4, cOp .cmp .ABS 4, cOp .dec .ABS 6, none]

/-- Bytes 0xD0 to 0xDF. -/
def officialRowD : List (Option Descriptor) :=
  [cRel .bne 2, cOp .cmp .IZY 5, none, none, none, cOp .cmp .ZPX 4,
   cOp .dec .ZPX 6, none, cImp .cld 2, cOp .cmp .ABY 4, none,
   none, none, cOp .cmp .ABX 4, cOp .dec .ABX 7, none]

/-- Bytes 0xE0 to 0xEF. -/
def officialRowE : List (Option Descriptor) :=
  [cOp .cpx .IMM 2, cOp .sbc .IZX 6, none, none, cOp .cpx .ZP0 3, cOp .sbc .ZP0 3,
   cOp .inc .ZP0 5, none, cImp .inx 2, cOp .sbc .IMM 2, cImp .nop 2,
   none, cOp .cpx .ABS 4, cOp .sbc .ABS 4, cOp .inc .ABS 6, none]

/-- Bytes 0xF0 to 0xFF. -/
def officialRowF : List (Option Descriptor) :=
  [cRel .beq 2, cOp .sbc .IZY 5, none, none, none, cOp .sbc .ZPX 4,
   cOp .inc .ZPX 6, none, cImp .sed 2, cOp .sbc .ABY 4, none,
   none, none, cOp .sbc .ABX 4, cOp .inc .ABX 7, none]

/-- The matrix of R124. -/
def officialMatrix : List (List (Option Descriptor)) :=
  [officialRow0, officialRow1, officialRow2, officialRow3] ++
  [officialRow4, officialRow5, officialRow6, officialRow7] ++
  [officialRow8, officialRow9, officialRowA, officialRowB] ++
  [officialRowC, officialRowD, officialRowE, officialRowF]

/-! The default `UNOFFICIAL_TABLE` (R127): every entry has mode IMP; `none` is an official byte. -/

/-- An XXX cell of R127. -/
def cX (base : Nat) : Option UnofficialEntry := some ⟨.xxx, .IMP, base⟩

/-- A NOP cell of R127. -/
def cN (base : Nat) : Option UnofficialEntry := some ⟨.nop, .IMP, base⟩

/-- Bytes 0x00 to 0x0F. -/
def placeholderRow0 : List (Option UnofficialEntry) :=
  [none, none, cX 2, cX 8, cN 3, none, none, cX 5, none, none, none, cX 2, cN 4, none, none, cX 6]

/-- Bytes 0x10 to 0x1F. -/
def placeholderRow1 : List (Option UnofficialEntry) :=
  [none, none, cX 2, cX 8, cN 4, none, none, cX 6, none, none, cN 2, cX 7, cN 4, none, none, cX 7]

/-- Bytes 0x20 to 0x2F. -/
def placeholderRow2 : List (Option UnofficialEntry) :=
  [none, none, cX 2, cX 8, none, none, none, cX 5, none, none, none, cX 2, none, none, none, cX 6]

/-- Bytes 0x30 to 0x3F. -/
def placeholderRow3 : List (Option UnofficialEntry) :=
  [none, none, cX 2, cX 8, cN 4, none, none, cX 6, none, none, cN 2, cX 7, cN 4, none, none, cX 7]

/-- Bytes 0x40 to 0x4F. -/
def placeholderRow4 : List (Option UnofficialEntry) :=
  [none, none, cX 2, cX 8, cN 3, none, none, cX 5, none, none, none, cX 2, none, none, none, cX 6]

/-- Bytes 0x50 to 0x5F. -/
def placeholderRow5 : List (Option UnofficialEntry) :=
  [none, none, cX 2, cX 8, cN 4, none, none, cX 6, none, none, cN 2, cX 7, cN 4, none, none, cX 7]

/-- Bytes 0x60 to 0x6F. -/
def placeholderRow6 : List (Option UnofficialEntry) :=
  [none, none, cX 2, cX 8, cN 3, none, none, cX 5, none, none, none, cX 2, none, none, none, cX 6]

/-- Bytes 0x70 to 0x7F. -/
def placeholderRow7 : List (Option UnofficialEntry) :=
  [none, none, cX 2, cX 8, cN 4, none, none, cX 6, none, none, cN 2, cX 7, cN 4, none, none, cX 7]

/-- Bytes 0x80 to 0x8F. -/
def placeholderRow8 : List (Option UnofficialEntry) :=
  [cN 2, none, cN 2, cX 6, none, none, none, cX 3, none, cN 2, none, cX 2, none, none, none, cX 4]

/-- Bytes 0x90 to 0x9F. -/
def placeholderRow9 : List (Option UnofficialEntry) :=
  [none, none, cX 2, cX 6, none, none, none, cX 4, none, none, none, cX 5, cN 5, none, cX 5, cX 5]

/-- Bytes 0xA0 to 0xAF. -/
def placeholderRowA : List (Option UnofficialEntry) :=
  [none, none, none, cX 6, none, none, none, cX 3, none, none, none, cX 2, none, none, none, cX 4]

/-- Bytes 0xB0 to 0xBF. -/
def placeholderRowB : List (Option UnofficialEntry) :=
  [none, none, cX 2, cX 5, none, none, none, cX 4, none, none, none, cX 4, none, none, none, cX 4]

/-- Bytes 0xC0 to 0xCF. -/
def placeholderRowC : List (Option UnofficialEntry) :=
  [none, none, cN 2, cX 8, none, none, none, cX 5, none, none, none, cX 2, none, none, none, cX 6]

/-- Bytes 0xD0 to 0xDF. -/
def placeholderRowD : List (Option UnofficialEntry) :=
  [none, none, cX 2, cX 8, cN 4, none, none, cX 6, none, none, cN 2, cX 7, cN 4, none, none, cX 7]

/-- Bytes 0xE0 to 0xEF. -/
def placeholderRowE : List (Option UnofficialEntry) :=
  [none, none, cN 2, cX 8, none, none, none, cX 5, none, none, none, cX 2, none, none, none, cX 6]

/-- Bytes 0xF0 to 0xFF. -/
def placeholderRowF : List (Option UnofficialEntry) :=
  [none, none, cX 2, cX 8, cN 4, none, none, cX 6, none, none, cN 2, cX 7, cN 4, none, none, cX 7]

/-- The matrix of R127. -/
def placeholderMatrix : List (List (Option UnofficialEntry)) :=
  [placeholderRow0, placeholderRow1, placeholderRow2, placeholderRow3] ++
  [placeholderRow4, placeholderRow5, placeholderRow6, placeholderRow7] ++
  [placeholderRow8, placeholderRow9, placeholderRowA, placeholderRowB] ++
  [placeholderRowC, placeholderRowD, placeholderRowE, placeholderRowF]

/-- The cell of an opcode byte in a 16 x 16 matrix. -/
def cellOf {α : Type} (rows : List (List (Option α))) (opcode : Byte) : Option α :=
  (rows.getD (opcode.toNat / 16) []).getD (opcode.toNat % 16) none

/-- The entry of an unofficial byte in the run's `UNOFFICIAL_TABLE` (R7, R127). -/
def Config.unofficialEntry (c : Config) (opcode : Byte) : UnofficialEntry :=
  match c.unofficial.lookup opcode with
  | some e => e
  | none => (cellOf placeholderMatrix opcode).getD ⟨.xxx, .IMP, 2⟩

/-- The descriptor of an unofficial byte. -/
def placeholder (opcode : Byte) (e : UnofficialEntry) : Descriptor where
  mode := e.mode
  base := e.base
  build b1 b2 :=
    match e.op with
    | .xxx => .xxx opcode (unreadOperandOf e.mode b1 b2)
    | .nop => .unofficialNop opcode (unreadOperandOf e.mode b1 b2)
  readsImm := false

/-- `TABLE[opcode]` (R123): total on any byte. -/
def descriptor (c : Config) (opcode : Byte) : Descriptor :=
  match cellOf officialMatrix opcode with
  | some d => d
  | none => placeholder opcode (c.unofficialEntry opcode)

/-- Why a byte list is no instruction: every opcode byte decodes, so only missing bytes are rejected. -/
inductive DecodeError where
  /-- There is no opcode byte. -/
  | noBytes
  /-- The list ends before the operand bytes of this opcode do. -/
  | truncated (opcode : Byte)
  deriving DecidableEq, Repr

/-- Decode the first instruction of a byte list in a run with launch constants `c`: the instruction and the
bytes after it. -/
def decodeIn (c : Config) : List Byte → Except DecodeError (Instr × List Byte)
  | [] => .error .noBytes
  | opcode :: rest =>
    let d := descriptor c opcode
    match d.mode.operandBytes, rest with
    | 0, rest => .ok (d.build 0 0, rest)
    | 1, b1 :: rest => .ok (d.build b1 0, rest)
    | 2, b1 :: b2 :: rest => .ok (d.build b1 b2, rest)
    | _, _ => .error (.truncated opcode)

/-- Decoding under the default `UNOFFICIAL_TABLE`. -/
def decode : List Byte → Except DecodeError (Instr × List Byte) := decodeIn Config.default

/-- The instruction that this decoder reads from the word `w`, whose bits are numbered as
spec/opcode_table.json numbers them: byte k of the instruction is bits 8k+7..8k; bits from `nbits` on are 0. -/
def decodeTableWord (nbits w : Nat) : Option Instr :=
  let v := w % 2 ^ nbits
  match decode [BitVec.ofNat 8 v, BitVec.ofNat 8 (v / 256), BitVec.ofNat 8 (v / 65536)] with
  | .ok (i, _) => some i
  | .error _ => none

/-! The encodings by instruction (the "Encodings" line of each rule): mode, opcode byte, base cycles. -/

/-- One encoding of an instruction. -/
structure Encoding where
  mode : Mode
  opcode : Byte
  base : Nat
  deriving DecidableEq, Repr

/-- LDA (R170). -/
def ldaEncodings : List Encoding :=
  [⟨.IMM, 0xA9, 2⟩, ⟨.ZP0, 0xA5, 3⟩, ⟨.ZPX, 0xB5, 4⟩, ⟨.ABS, 0xAD, 4⟩,
   ⟨.ABX, 0xBD, 4⟩, ⟨.ABY, 0xB9, 4⟩, ⟨.IZX, 0xA1, 6⟩, ⟨.IZY, 0xB1, 5⟩]

/-- LDX (R171). -/
def ldxEncodings : List Encoding :=
  [⟨.IMM, 0xA2, 2⟩, ⟨.ZP0, 0xA6, 3⟩, ⟨.ZPY, 0xB6, 4⟩, ⟨.ABS, 0xAE, 4⟩,
   ⟨.ABY, 0xBE, 4⟩]

/-- LDY (R172). -/
def ldyEncodings : List Encoding :=
  [⟨.IMM, 0xA0, 2⟩, ⟨.ZP0, 0xA4, 3⟩, ⟨.ZPX, 0xB4, 4⟩, ⟨.ABS, 0xAC, 4⟩,
   ⟨.ABX, 0xBC, 4⟩]

/-- STA (R173). -/
def staEncodings : List Encoding :=
  [⟨.ZP0, 0x85, 3⟩, ⟨.ZPX, 0x95, 4⟩, ⟨.ABS, 0x8D, 4⟩, ⟨.ABX, 0x9D, 5⟩,
   ⟨.ABY, 0x99, 5⟩, ⟨.IZX, 0x81, 6⟩, ⟨.IZY, 0x91, 6⟩]

/-- STX (R174). -/
def stxEncodings : List Encoding :=
  [⟨.ZP0, 0x86, 3⟩, ⟨.ZPY, 0x96, 4⟩, ⟨.ABS, 0x8E, 4⟩]

/-- STY (R175). -/
def styEncodings : List Encoding :=
  [⟨.ZP0, 0x84, 3⟩, ⟨.ZPX, 0x94, 4⟩, ⟨.ABS, 0x8C, 4⟩]

/-- ADC (R193). -/
def adcEncodings : List Encoding :=
  [⟨.IMM, 0x69, 2⟩, ⟨.ZP0, 0x65, 3⟩, ⟨.ZPX, 0x75, 4⟩, ⟨.ABS, 0x6D, 4⟩,
   ⟨.ABX, 0x7D, 4⟩, ⟨.ABY, 0x79, 4⟩, ⟨.IZX, 0x61, 6⟩, ⟨.IZY, 0x71, 5⟩]

/-- SBC (R194). -/
def sbcEncodings : List Encoding :=
  [⟨.IMM, 0xE9, 2⟩, ⟨.ZP0, 0xE5, 3⟩, ⟨.ZPX, 0xF5, 4⟩, ⟨.ABS, 0xED, 4⟩,
   ⟨.ABX, 0xFD, 4⟩, ⟨.ABY, 0xF9, 4⟩, ⟨.IZX, 0xE1, 6⟩, ⟨.IZY, 0xF1, 5⟩]

/-- AND (R195). -/
def andEncodings : List Encoding :=
  [⟨.IMM, 0x29, 2⟩, ⟨.ZP0, 0x25, 3⟩, ⟨.ZPX, 0x35, 4⟩, ⟨.ABS, 0x2D, 4⟩,
   ⟨.ABX, 0x3D, 4⟩, ⟨.ABY, 0x39, 4⟩, ⟨.IZX, 0x21, 6⟩, ⟨.IZY, 0x31, 5⟩]

/-- ORA (R196). -/
def oraEncodings : List Encoding :=
  [⟨.IMM, 0x09, 2⟩, ⟨.ZP0, 0x05, 3⟩, ⟨.ZPX, 0x15, 4⟩, ⟨.ABS, 0x0D, 4⟩,
   ⟨.ABX, 0x1D, 4⟩, ⟨.ABY, 0x19, 4⟩, ⟨.IZX, 0x01, 6⟩, ⟨.IZY, 0x11, 5⟩]

/-- EOR (R197). -/
def eorEncodings : List Encoding :=
  [⟨.IMM, 0x49, 2⟩, ⟨.ZP0, 0x45, 3⟩, ⟨.ZPX, 0x55, 4⟩, ⟨.ABS, 0x4D, 4⟩,
   ⟨.ABX, 0x5D, 4⟩, ⟨.ABY, 0x59, 4⟩, ⟨.IZX, 0x41, 6⟩, ⟨.IZY, 0x51, 5⟩]

/-- BIT (R198). -/
def bitEncodings : List Encoding :=
  [⟨.ZP0, 0x24, 3⟩, ⟨.ABS, 0x2C, 4⟩]

/-- CMP (R199). -/
def cmpEncodings : List Encoding :=
  [⟨.IMM, 0xC9, 2⟩, ⟨.ZP0, 0xC5, 3⟩, ⟨.ZPX, 0xD5, 4⟩, ⟨.ABS, 0xCD, 4⟩,
   ⟨.ABX, 0xDD, 4⟩, ⟨.ABY, 0xD9, 4⟩, ⟨.IZX, 0xC1, 6⟩, ⟨.IZY, 0xD1, 5⟩]

/-- CPX (R200). -/
def cpxEncodings : List Encoding :=
  [⟨.IMM, 0xE0, 2⟩, ⟨.ZP0, 0xE4, 3⟩, ⟨.ABS, 0xEC, 4⟩]

/-- CPY (R201). -/
def cpyEncodings : List Encoding :=
  [⟨.IMM, 0xC0, 2⟩, ⟨.ZP0, 0xC4, 3⟩, ⟨.ABS, 0xCC, 4⟩]

/-- INC (R202). -/
def incEncodings : List Encoding :=
  [⟨.ZP0, 0xE6, 5⟩, ⟨.ZPX, 0xF6, 6⟩, ⟨.ABS, 0xEE, 6⟩, ⟨.ABX, 0xFE, 7⟩]

/-- DEC (R203). -/
def decEncodings : List Encoding :=
  [⟨.ZP0, 0xC6, 5⟩, ⟨.ZPX, 0xD6, 6⟩, ⟨.ABS, 0xCE, 6⟩, ⟨.ABX, 0xDE, 7⟩]

/-- ASL (R221). -/
def aslEncodings : List Encoding :=
  [⟨.IMP, 0x0A, 2⟩, ⟨.ZP0, 0x06, 5⟩, ⟨.ZPX, 0x16, 6⟩, ⟨.ABS, 0x0E, 6⟩,
   ⟨.ABX, 0x1E, 7⟩]

/-- LSR (R222). -/
def lsrEncodings : List Encoding :=
  [⟨.IMP, 0x4A, 2⟩, ⟨.ZP0, 0x46, 5⟩, ⟨.ZPX, 0x56, 6⟩, ⟨.ABS, 0x4E, 6⟩,
   ⟨.ABX, 0x5E, 7⟩]

/-- ROL (R223). -/
def rolEncodings : List Encoding :=
  [⟨.IMP, 0x2A, 2⟩, ⟨.ZP0, 0x26, 5⟩, ⟨.ZPX, 0x36, 6⟩, ⟨.ABS, 0x2E, 6⟩,
   ⟨.ABX, 0x3E, 7⟩]

/-- ROR (R224). -/
def rorEncodings : List Encoding :=
  [⟨.IMP, 0x6A, 2⟩, ⟨.ZP0, 0x66, 5⟩, ⟨.ZPX, 0x76, 6⟩, ⟨.ABS, 0x6E, 6⟩,
   ⟨.ABX, 0x7E, 7⟩]

/-- JMP (R239). -/
def jmpEncodings : List Encoding :=
  [⟨.ABS, 0x4C, 3⟩, ⟨.IND, 0x6C, 5⟩]

/-- The opcode byte of an operand form. -/
def formOpcode (es : List Encoding) (o : Operand) : Option Byte :=
  if o = .pad then none else (es.find? fun e => decide (e.mode = o.mode)).map (·.opcode)

/-- The base cycles of a mode; 0 for a mode the instruction does not have (log 15). -/
def baseOf (es : List Encoding) (m : Mode) : Nat :=
  ((es.find? fun e => decide (e.mode = m)).map (·.base)).getD 0

/-- The opcode byte of an instruction; `none` where the instruction does not exist. -/
def opcodeIn (c : Config) : Instr → Option Byte
  | .lda o => formOpcode ldaEncodings o
  | .ldx o => formOpcode ldxEncodings o
  | .ldy o => formOpcode ldyEncodings o
  | .sta o => formOpcode staEncodings o
  | .stx o => formOpcode stxEncodings o
  | .sty o => formOpcode styEncodings o
  | .tax => some 0xAA
  | .tay => some 0xA8
  | .txa => some 0x8A
  | .tya => some 0x98
  | .tsx => some 0xBA
  | .txs => some 0x9A
  | .adc o => formOpcode adcEncodings o
  | .sbc o => formOpcode sbcEncodings o
  | .and o => formOpcode andEncodings o
  | .ora o => formOpcode oraEncodings o
  | .eor o => formOpcode eorEncodings o
  | .bit o => formOpcode bitEncodings o
  | .cmp o => formOpcode cmpEncodings o
  | .cpx o => formOpcode cpxEncodings o
  | .cpy o => formOpcode cpyEncodings o
  | .inc o => formOpcode incEncodings o
  | .dec o => formOpcode decEncodings o
  | .inx => some 0xE8
  | .iny => some 0xC8
  | .dex => some 0xCA
  | .dey => some 0x88
  | .asl o => formOpcode aslEncodings o
  | .lsr o => formOpcode lsrEncodings o
  | .rol o => formOpcode rolEncodings o
  | .ror o => formOpcode rorEncodings o
  | .bcc _ => some 0x90
  | .bcs _ => some 0xB0
  | .beq _ => some 0xF0
  | .bne _ => some 0xD0
  | .bmi _ => some 0x30
  | .bpl _ => some 0x10
  | .bvc _ => some 0x50
  | .bvs _ => some 0x70
  | .jmp o => formOpcode jmpEncodings o
  | .jsr _ => some 0x20
  | .rts => some 0x60
  | .pha => some 0x48
  | .php => some 0x08
  | .pla => some 0x68
  | .plp => some 0x28
  | .clc => some 0x18
  | .sec => some 0x38
  | .cli => some 0x58
  | .sei => some 0x78
  | .cld => some 0xD8
  | .sed => some 0xF8
  | .clv => some 0xB8
  | .nop => some 0xEA
  | .brk => some 0x00
  | .rti => some 0x40
  | .xxx b o => if c.placeholderExists .xxx b o then some b else none
  | .unofficialNop b o => if c.placeholderExists .nop b o then some b else none

/-- The operand of an instruction as an operand form: BRK skips one byte, a branch is REL, JSR is ABS. -/
def Instr.operand : Instr → Operand
  | .lda o => o
  | .ldx o => o
  | .ldy o => o
  | .sta o => o
  | .stx o => o
  | .sty o => o
  | .tax => .imp
  | .tay => .imp
  | .txa => .imp
  | .tya => .imp
  | .tsx => .imp
  | .txs => .imp
  | .adc o => o
  | .sbc o => o
  | .and o => o
  | .ora o => o
  | .eor o => o
  | .bit o => o
  | .cmp o => o
  | .cpx o => o
  | .cpy o => o
  | .inc o => o
  | .dec o => o
  | .inx => .imp
  | .iny => .imp
  | .dex => .imp
  | .dey => .imp
  | .asl o => o
  | .lsr o => o
  | .rol o => o
  | .ror o => o
  | .bcc b => .rel b
  | .bcs b => .rel b
  | .beq b => .rel b
  | .bne b => .rel b
  | .bmi b => .rel b
  | .bpl b => .rel b
  | .bvc b => .rel b
  | .bvs b => .rel b
  | .jmp o => o
  | .jsr w => .abs w
  | .rts => .imp
  | .pha => .imp
  | .php => .imp
  | .pla => .imp
  | .plp => .imp
  | .clc => .imp
  | .sec => .imp
  | .cli => .imp
  | .sei => .imp
  | .cld => .imp
  | .sed => .imp
  | .clv => .imp
  | .nop => .imp
  | .brk => .pad
  | .rti => .imp
  | .xxx _ o => o
  | .unofficialNop _ o => o

/-- The operand bytes of an operand form; a skipped byte is encoded as 0x00 (log 6). -/
def Operand.bytes : Operand → List Byte
  | .imp => []
  | .imm b => [b]
  | .pad => [0x00]
  | .zp0 b => [b]
  | .zpx b => [b]
  | .zpy b => [b]
  | .rel b => [b]
  | .abs w => [lowByte w, highByte w]
  | .abx w => [lowByte w, highByte w]
  | .aby w => [lowByte w, highByte w]
  | .ind w => [lowByte w, highByte w]
  | .izx b => [b]
  | .izy b => [b]

/-- The bytes of an instruction in a run with launch constants `c`; `none` where it does not exist. -/
def encodeIn (c : Config) (i : Instr) : Option (List Byte) :=
  (opcodeIn c i).map fun op => op :: i.operand.bytes

/-- Encoding under the default `UNOFFICIAL_TABLE`. -/
def encode : Instr → Option (List Byte) := encodeIn Config.default

/-! The assembler text of R130. -/

/-- The mnemonic string of the descriptor (R123, R130; ??? for an unofficial byte, R127). -/
def Instr.mnemonic : Instr → String
  | .lda _ => "LDA"
  | .ldx _ => "LDX"
  | .ldy _ => "LDY"
  | .sta _ => "STA"
  | .stx _ => "STX"
  | .sty _ => "STY"
  | .tax => "TAX"
  | .tay => "TAY"
  | .txa => "TXA"
  | .tya => "TYA"
  | .tsx => "TSX"
  | .txs => "TXS"
  | .adc _ => "ADC"
  | .sbc _ => "SBC"
  | .and _ => "AND"
  | .ora _ => "ORA"
  | .eor _ => "EOR"
  | .bit _ => "BIT"
  | .cmp _ => "CMP"
  | .cpx _ => "CPX"
  | .cpy _ => "CPY"
  | .inc _ => "INC"
  | .dec _ => "DEC"
  | .inx => "INX"
  | .iny => "INY"
  | .dex => "DEX"
  | .dey => "DEY"
  | .asl _ => "ASL"
  | .lsr _ => "LSR"
  | .rol _ => "ROL"
  | .ror _ => "ROR"
  | .bcc _ => "BCC"
  | .bcs _ => "BCS"
  | .beq _ => "BEQ"
  | .bne _ => "BNE"
  | .bmi _ => "BMI"
  | .bpl _ => "BPL"
  | .bvc _ => "BVC"
  | .bvs _ => "BVS"
  | .jmp _ => "JMP"
  | .jsr _ => "JSR"
  | .rts => "RTS"
  | .pha => "PHA"
  | .php => "PHP"
  | .pla => "PLA"
  | .plp => "PLP"
  | .clc => "CLC"
  | .sec => "SEC"
  | .cli => "CLI"
  | .sei => "SEI"
  | .cld => "CLD"
  | .sed => "SED"
  | .clv => "CLV"
  | .nop => "NOP"
  | .brk => "BRK"
  | .rti => "RTI"
  | .xxx _ _ => "???"
  | .unofficialNop _ _ => "???"

/-- One hexadecimal digit. -/
def hexDigit (k : Nat) : String :=
  (["0", "1", "2", "3", "4", "5", "6", "7"] ++ ["8", "9", "A", "B", "C", "D", "E", "F"]).getD k "?"

/-- A byte as two digits. -/
def hexByte (b : Byte) : String := hexDigit (b.toNat / 16) ++ hexDigit (b.toNat % 16)

/-- A word as four digits. -/
def hexWord (w : Addr) : String := hexByte (highByte w) ++ hexByte (lowByte w)

/-- The operand text of R130; `next` is the address of the next instruction, which the text of a REL operand
is taken from. A skipped byte has no text. -/
def Operand.assembly (next : Addr) : Operand → String
  | .imp => ""
  | .imm b => " #$" ++ hexByte b
  | .pad => ""
  | .zp0 b => " $" ++ hexByte b
  | .zpx b => " $" ++ hexByte b ++ ",X"
  | .zpy b => " $" ++ hexByte b ++ ",Y"
  | .rel b => " $" ++ hexWord (next + b.signExtend 16)
  | .abs w => " $" ++ hexWord w
  | .abx w => " $" ++ hexWord w ++ ",X"
  | .aby w => " $" ++ hexWord w ++ ",Y"
  | .ind w => " ($" ++ hexWord w ++ ")"
  | .izx b => " ($" ++ hexByte b ++ ",X)"
  | .izy b => " ($" ++ hexByte b ++ "),Y"

/-- The assembler text of an instruction (R130). -/
def Instr.assembly (next : Addr) (i : Instr) : String := i.mnemonic ++ i.operand.assembly next

end Sys2Proof
end

