-- ==== Sys2Proof/Machine/State.lean ====
section
/-! DEFINITION. The state of the machine (10_state.md R58): CPU, bus, PPU, cartridge, and the launch
constants of 00_scope.md R7. Plain data throughout. Memories are sparse lists in one canonical form
(Machine/Memory.lean): a cell that is not listed holds zero. -/

namespace Sys2Proof.Machine

/-- Cells of width `w` by index; the canonical form is `Cells.wf` (Machine/Memory.lean). -/
abbrev Cells (w : Nat) := List (Nat × BitVec w)

/-- A byte memory: a list of `Host.Cell`. -/
abbrev Memory := List Host.Cell

/-- The CPU registers and the hidden CPU state (10_state.md R20 to R24, R29). -/
structure Cpu where
  a : Byte
  x : Byte
  y : Byte
  s : Byte
  pc : Addr
  p : Byte
  /-- CPU clocks that remain before the next opcode fetch. -/
  countdown : Nat
  opcode : Byte
  mode : Mode
  ea : Addr
  rel : Addr
  fetched : Byte
  clockCount : Nat
  deriving DecidableEq, Repr

/-- The PPU (10_state.md R40 to R50). The status register is its three live flags (R42); the physical
nametable byte `NT[table][offset]` is cell `table * 1024 + offset` of `nt`, and the pixel `FB[y][x]` is cell
`y * 256 + x` of `fb`. -/
structure Ppu where
  ctrl : Byte
  mask : Byte
  verticalBlank : Bool
  spriteZeroHit : Bool
  spriteOverflow : Bool
  v : Loopy
  t : Loopy
  fineX : BitVec 3
  w : Bool
  dataBuf : Byte
  scanline : Int
  dot : Nat
  bgNextTileId : Byte
  bgNextTileAttrib : Byte
  bgNextTileLsb : Byte
  bgNextTileMsb : Byte
  bgShifterPatternLo : BitVec 16
  bgShifterPatternHi : BitVec 16
  bgShifterAttribLo : BitVec 16
  bgShifterAttribHi : BitVec 16
  nmiPending : Bool
  frameComplete : Bool
  nt : Memory
  pal : Memory
  fb : Cells 6
  deriving DecidableEq, Repr

/-- The machine (10_state.md R58). `cfg` holds the launch constants, which no step changes. `prg` and `chr`
are the cartridge arrays, indexed by mapped offset (20_memory.md R81, R83). -/
structure State where
  cfg : Config
  cpu : Cpu
  ram : Memory
  sysCounter : Nat
  ppu : Ppu
  prg : Memory
  chr : Memory
  deriving DecidableEq, Repr

/-- Why a step can stop with a fault: never. "There is no run-time fault" (00_scope.md R9; also
30_encoding.md R133, 60_exceptions.md R400, R421), so the type has no constructor. -/
inductive Fault where
  deriving DecidableEq, Repr

/-- Why a step can be refused. -/
inductive Refusal where
  /-- The host's name for an instruction without a meaning; no arm of `exec` answers it, and nothing else
  does (safe). -/
  | notModelled (mnemonic : String)
  deriving DecidableEq, Repr

/-- What a step or an instruction answers. -/
abbrev Result := Host.Outcome State Fault Refusal

/-! Register writes, one for each register of the CPU and one for each other part. -/

/-- `A <- v`. -/
def State.setA (st : State) (v : Byte) : State := { st with cpu := { st.cpu with a := v } }
/-- `X <- v`. -/
def State.setX (st : State) (v : Byte) : State := { st with cpu := { st.cpu with x := v } }
/-- `Y <- v`. -/
def State.setY (st : State) (v : Byte) : State := { st with cpu := { st.cpu with y := v } }
/-- `S <- v`. -/
def State.setS (st : State) (v : Byte) : State := { st with cpu := { st.cpu with s := v } }
/-- `PC <- v`. -/
def State.setPc (st : State) (v : Addr) : State := { st with cpu := { st.cpu with pc := v } }
/-- `P <- v`. -/
def State.setP (st : State) (v : Byte) : State := { st with cpu := { st.cpu with p := v } }
/-- `countdown <- v`. -/
def State.setCountdown (st : State) (v : Nat) : State := { st with cpu := { st.cpu with countdown := v } }
/-- `opcode <- v`. -/
def State.setOpcode (st : State) (v : Byte) : State := { st with cpu := { st.cpu with opcode := v } }
/-- `mode <- v`. -/
def State.setMode (st : State) (v : Mode) : State := { st with cpu := { st.cpu with mode := v } }
/-- `ea <- v`. -/
def State.setEa (st : State) (v : Addr) : State := { st with cpu := { st.cpu with ea := v } }
/-- `rel <- v`. -/
def State.setRel (st : State) (v : Addr) : State := { st with cpu := { st.cpu with rel := v } }
/-- `fetched <- v`. -/
def State.setFetched (st : State) (v : Byte) : State := { st with cpu := { st.cpu with fetched := v } }
/-- `clockCount <- v`. -/
def State.setClockCount (st : State) (v : Nat) : State := { st with cpu := { st.cpu with clockCount := v } }
/-- `RAM <- v`. -/
def State.setRam (st : State) (v : Memory) : State := { st with ram := v }
/-- `sysCounter <- v`. -/
def State.setSysCounter (st : State) (v : Nat) : State := { st with sysCounter := v }
/-- The whole PPU. -/
def State.setPpu (st : State) (v : Ppu) : State := { st with ppu := v }
/-- `PRG <- v`. -/
def State.setPrg (st : State) (v : Memory) : State := { st with prg := v }
/-- `CHR <- v`. -/
def State.setChr (st : State) (v : Memory) : State := { st with chr := v }

/-- The CPU after `CpuReset()` (10_state.md R30, 70_reset_and_hazards.md R430) with the reset vector
`vector`. `opcode` and `mode` are unspecified and `clockCount` is not reset: they keep the values of the CPU
`c` from before. -/
def Cpu.afterReset (c : Cpu) (vector : Addr) : Cpu where
  a := 0x00
  x := 0x00
  y := 0x00
  s := 0xFD
  pc := vector
  p := 0x20
  countdown := 8
  opcode := c.opcode
  mode := c.mode
  ea := 0x0000
  rel := 0x0000
  fetched := 0x00
  clockCount := c.clockCount

/-- CPU registers before the first reset, where `State.reset` needs one: zeros. The spec gives them no
value (10_state.md R30) and reset overwrites all but `opcode`, `mode` and `clockCount`, whose values here are
this model's DESIGN CHOICE (log 4). -/
def Cpu.blank : Cpu where
  a := 0x00
  x := 0x00
  y := 0x00
  s := 0x00
  pc := 0x0000
  p := 0x00
  countdown := 0
  opcode := 0x00
  mode := .IMP
  ea := 0x0000
  rel := 0x0000
  fetched := 0x00
  clockCount := 0

/-- The PPU at power-on (10_state.md R60): registers, latches, shifters and flags 0, scanline -1, dot 0,
with given contents of nametable RAM, palette RAM and framebuffer, which the spec leaves open. -/
def Ppu.powerOn (nt pal : Memory) (fb : Cells 6) : Ppu where
  ctrl := 0x00
  mask := 0x00
  verticalBlank := false
  spriteZeroHit := false
  spriteOverflow := false
  v := 0
  t := 0
  fineX := 0
  w := false
  dataBuf := 0x00
  scanline := -1
  dot := 0
  bgNextTileId := 0x00
  bgNextTileAttrib := 0x00
  bgNextTileLsb := 0x00
  bgNextTileMsb := 0x00
  bgShifterPatternLo := 0x0000
  bgShifterPatternHi := 0x0000
  bgShifterAttribLo := 0x0000
  bgShifterAttribHi := 0x0000
  nmiPending := false
  frameComplete := false
  nt := nt
  pal := pal
  fb := fb

/-- The machine right after reset: `BusReset()` on the power-on state (10_state.md R60,
70_reset_and_hazards.md R432), with the default launch constants, a blank cartridge (every byte 0x00, log 1)
and zeros where the spec leaves the launch contents open (log 2, log 3). The reset vector of the blank
cartridge is 0x0000. -/
def State.reset : State where
  cfg := Config.default
  cpu := Cpu.blank.afterReset 0x0000
  ram := []
  sysCounter := 0
  ppu := Ppu.powerOn [] [] []
  prg := []
  chr := []

end Sys2Proof.Machine
end

