-- ==== Sys2Proof/Machine/Flags.lean ====
section
/-! DEFINITION. The status register `P` and every flag computation (10_state.md R24 to R28). -/

namespace Sys2Proof.Machine

/-- The named bits of `P` (R24). -/
inductive Flag where
  | C | Z | I | D | B | U | V | N
  deriving DecidableEq, Repr

/-- The position of a flag (R24). -/
def Flag.index : Flag → Nat
  | .C => 0
  | .Z => 1
  | .I => 2
  | .D => 3
  | .B => 4
  | .U => 5
  | .V => 6
  | .N => 7

/-- The mask of a flag (R24). -/
def Flag.mask (f : Flag) : Byte := 1#8 <<< f.index

/-- A flag of a status byte. -/
def flagOf (f : Flag) (p : Byte) : Bool := p.getLsbD f.index

/-- A status byte with one flag written. -/
def withFlag (f : Flag) (b : Bool) (p : Byte) : Byte :=
  if b then p ||| f.mask else p &&& ~~~f.mask

/-- A flag of the machine. -/
def State.flag (st : State) (f : Flag) : Bool := flagOf f st.cpu.p

/-- `P.f <- b`. -/
def State.setFlag (st : State) (f : Flag) (b : Bool) : State := st.setP (withFlag f b st.cpu.p)

/-- `SetZN(v)`: Z says that `v` is zero, N is bit 7 (00_scope.md R12). -/
def State.setZN (st : State) (v : Byte) : State := (st.setFlag .Z (decide (v = 0))).setFlag .N v.msb

/-- A carry as a number, 0 or 1. -/
def carryValue (c : Bool) : Nat := if c then 1 else 0

/-- The 9-bit sum `A + m + C` of ADC, 0..511 (42_arithmetic_logic.md R193). -/
def addSum (a m : Byte) (c : Bool) : Nat := a.toNat + m.toNat + carryValue c

/-- The result byte of an addition: the sum modulo 256 (R190). -/
def addByte (a m : Byte) (c : Bool) : Byte := BitVec.ofNat 8 (addSum a m c)

/-- The overflow rule `(~(A ^ m) & (A ^ t)) & 0x80 != 0` (R191). -/
def addOverflow (a m : Byte) (c : Bool) : Bool := (~~~(a ^^^ m) &&& (a ^^^ addByte a m c)).msb

/-- The flags of ADC, and of SBC on the complemented operand: C is the ninth bit, Z and N are of the result
byte, V by the overflow rule (R193, R194). -/
def State.setAddFlags (st : State) (a m : Byte) (c : Bool) : State :=
  (((st.setFlag .C (decide (addSum a m c > 0xFF))).setFlag .Z (decide (addByte a m c = 0))).setFlag .V
    (addOverflow a m c)).setFlag .N (addByte a m c).msb

/-- The flags of CMP, CPX, CPY: C says register >= operand unsigned, Z and N are of the difference
(R199 to R201). -/
def State.setCompareFlags (st : State) (r m : Byte) : State :=
  (st.setFlag .C (decide (r.toNat ≥ m.toNat))).setZN (r - m)

/-- The flags of BIT: Z from `A & m`, N and V from bits 7 and 6 of the operand (R198). -/
def State.setBitFlags (st : State) (a m : Byte) : State :=
  ((st.setFlag .Z (decide (a &&& m = 0))).setFlag .N (m.getLsbD 7)).setFlag .V (m.getLsbD 6)

/-- The flags of a shift or rotate: C is the bit shifted out, Z and N are of the result (43_shift_rotate.md
R220). -/
def State.setShiftFlags (st : State) (out : Bool) (r : Byte) : State := (st.setFlag .C out).setZN r

/-- ASL: the result; bit 0 becomes 0 (R221). -/
def aslByte (m : Byte) : Byte := m <<< 1

/-- LSR: the result; bit 7 becomes 0 (R222). -/
def lsrByte (m : Byte) : Byte := m >>> 1

/-- ROL: the result; the old carry enters bit 0 (R223). -/
def rolByte (m : Byte) (c : Bool) : Byte := (m <<< 1) ||| BitVec.ofNat 8 (carryValue c)

/-- ROR: the result; the old carry enters bit 7 (R224). -/
def rorByte (m : Byte) (c : Bool) : Byte := (BitVec.ofNat 8 (carryValue c) <<< 7) ||| (m >>> 1)

/-- The status byte as PHP and BRK push it: bits 4 and 5 set (45_stack_flags_system.md R251, R262). -/
def pushedWithBreak (p : Byte) : Byte := p ||| 0x30

/-- The status that PLP makes of the pulled byte: U forced to 1 (R253). -/
def plpStatus (p : Byte) : Byte := p ||| 0x20

/-- The status that RTI makes of the pulled byte: B cleared, U set (R263). -/
def rtiStatus (p : Byte) : Byte := (p &&& 0xCF) ||| 0x20

end Sys2Proof.Machine
end

