-- ==== Sys2Proof/Machine/Memory.lean ====
section
/-! DEFINITION. Sparse memories: reading, writing and the canonical form. One form for every memory of the
machine: work RAM, program ROM, character ROM, nametables, palette (bytes) and the framebuffer (colours). -/

namespace Sys2Proof.Machine

/-- The value of an unlisted cell: zero (DESIGN CHOICE for launch contents, log 2). -/
def Cells.unlisted (w : Nat) : BitVec w := 0#w

/-- The value at index `a`. -/
def Cells.read {w : Nat} : Cells w → Nat → BitVec w
  | [], _ => Cells.unlisted w
  | (b, v) :: rest, a => if b = a then v else Cells.read rest a

/-- The list without index `a`. -/
def Cells.erase {w : Nat} : Cells w → Nat → Cells w
  | [], _ => []
  | (b, v) :: rest, a => if b = a then Cells.erase rest a else (b, v) :: Cells.erase rest a

/-- The list with a cell put in before the first larger index. -/
def Cells.insert {w : Nat} : Cells w → Nat → BitVec w → Cells w
  | [], a, x => [(a, x)]
  | (b, v) :: rest, a, x => if a < b then (a, x) :: (b, v) :: rest else (b, v) :: Cells.insert rest a x

/-- Write `x` at index `a`; writing the value of an unlisted cell removes the entry. -/
def Cells.write {w : Nat} (m : Cells w) (a : Nat) (x : BitVec w) : Cells w :=
  if x = Cells.unlisted w then Cells.erase m a else Cells.insert (Cells.erase m a) a x

/-- Canonical from a lower bound on: indices rise strictly, and no entry holds the unlisted value. -/
def Cells.wfFrom {w : Nat} (lo : Nat) : Cells w → Bool
  | [] => true
  | (b, v) :: rest => decide (lo ≤ b) && decide (v ≠ Cells.unlisted w) && Cells.wfFrom (b + 1) rest

/-- The canonical form. Equal contents in canonical form are equal lists. -/
def Cells.wf {w : Nat} (m : Cells w) : Bool := Cells.wfFrom 0 m

/-- Every listed index lies below `size`. -/
def Cells.within {w : Nat} (size : Nat) (m : Cells w) : Bool := m.all fun c => decide (c.1 < size)

/-- The canonical form of a byte memory. -/
abbrev Memory.wf (m : Memory) : Bool := Cells.wf (w := 8) m

/-- The cells from index `k` on that hold the given values. -/
def Cells.ofListFrom {w : Nat} (k : Nat) : List (BitVec w) → Cells w
  | [] => []
  | x :: xs =>
    if x = Cells.unlisted w then Cells.ofListFrom (k + 1) xs else (k, x) :: Cells.ofListFrom (k + 1) xs

/-- The memory that holds an array of launch contents. -/
def Cells.ofList {w : Nat} (l : List (BitVec w)) : Cells w := Cells.ofListFrom 0 l

end Sys2Proof.Machine
end

