-- ==== Sys2Proof/Machine/PpuMemory.lean ====
section
/-! DEFINITION. The PPU address space and mapper 0 on the PPU side (20_memory.md R83, R84, R95 to R99). -/

namespace Sys2Proof.Machine

/-- `Mapper0PpuRead(a)`, `a` masked to 14 bits: the mapped offset where the mapper handles the read (R83). -/
def mapper0PpuRead (a : Nat) : Option Nat := if a ≤ 0x1FFF then some a else none

/-- `Mapper0PpuWrite(a)`: handled only when `CHR_WRITABLE` (R84). -/
def mapper0PpuWrite (c : Config) (a : Nat) : Option Nat :=
  if c.chrWritable ∧ a ≤ 0x1FFF then some a else none

/-- `NtIndex(a)`: the cell of the physical nametable byte that a nametable address selects (R97). -/
def ntIndex (m : Mirroring) (a : Nat) : Nat :=
  let r := a % 0x1000
  let q := r / 0x400
  let table := match m with
    | .vertical => q % 2
    | .horizontal => q / 2
  table * 1024 + r % 0x400

/-- `PalIndex(a)`: the 32 entries repeat, and 0x10, 0x14, 0x18, 0x1C fold onto 0x00, 0x04, 0x08, 0x0C (R98). -/
def palIndex (a : Nat) : Nat :=
  let i := a % 0x20
  if i = 0x10 ∨ i = 0x14 ∨ i = 0x18 ∨ i = 0x1C then i - 0x10 else i

/-- `PpuRead(a)` (R95); the address is masked to 14 bits, and there is no side effect. -/
def State.ppuRead (st : State) (addr : Addr) : Byte :=
  let a := addr.toNat % 0x4000
  match mapper0PpuRead a with
  | some off => Cells.read st.chr off
  | none =>
    if a ≤ 0x3EFF then Cells.read st.ppu.nt (ntIndex st.cfg.mirror a)
    else Cells.read st.ppu.pal (palIndex a)

/-- `PpuWrite(a, d)` (R96); a write to character ROM changes nothing unless `CHR_WRITABLE`. -/
def State.ppuWrite (st : State) (addr : Addr) (d : Byte) : State :=
  let a := addr.toNat % 0x4000
  match mapper0PpuWrite st.cfg a with
  | some off => st.setChr (Cells.write st.chr off d)
  | none =>
    if a ≤ 0x1FFF then st
    else if a ≤ 0x3EFF then
      st.setPpu { st.ppu with nt := Cells.write st.ppu.nt (ntIndex st.cfg.mirror a) d }
    else st.setPpu { st.ppu with pal := Cells.write st.ppu.pal (palIndex a) d }

end Sys2Proof.Machine
end

