-- ==== Sys2Proof/Machine/PpuPorts.lean ====
section
/-! DEFINITION. The PPU's registers by field (10_state.md R40 to R43) and its eight CPU-facing ports
(50_ppu_ports.md). -/

namespace Sys2Proof.Machine

/-! Fields of `ctrl` and `mask` that something reads (R40, R41). -/

/-- `ctrl.incrementMode`, bit 2. -/
def Ppu.incrementMode (p : Ppu) : Bool := p.ctrl.getLsbD 2
/-- `ctrl.patternBackground`, bit 4. -/
def Ppu.patternBackground (p : Ppu) : Bool := p.ctrl.getLsbD 4
/-- `ctrl.enableNmi`, bit 7. -/
def Ppu.enableNmi (p : Ppu) : Bool := p.ctrl.getLsbD 7
/-- `mask.renderBackground`, bit 3. -/
def Ppu.renderBackground (p : Ppu) : Bool := p.mask.getLsbD 3
/-- `mask.renderSprites`, bit 4. -/
def Ppu.renderSprites (p : Ppu) : Bool := p.mask.getLsbD 4

/-! Fields of a loopy register (R43). -/

/-- `coarseX`, bits 4:0. -/
def coarseX (r : Loopy) : BitVec 5 := r.extractLsb' 0 5
/-- `coarseY`, bits 9:5. -/
def coarseY (r : Loopy) : BitVec 5 := r.extractLsb' 5 5
/-- `nametableX`, bit 10. -/
def nametableX (r : Loopy) : BitVec 1 := r.extractLsb' 10 1
/-- `nametableY`, bit 11. -/
def nametableY (r : Loopy) : BitVec 1 := r.extractLsb' 11 1
/-- `fineY`, bits 14:12. -/
def fineY (r : Loopy) : BitVec 3 := r.extractLsb' 12 3

/-- The loopy register with the given fields: `fineY << 12 | nametableY << 11 | nametableX << 10 |
coarseY << 5 | coarseX` (R43). -/
def loopy (fy : BitVec 3) (ny nx : BitVec 1) (cy cx : BitVec 5) : Loopy := fy ++ ny ++ nx ++ cy ++ cx

/-- The register with `coarseX` written. -/
def withCoarseX (r : Loopy) (x : BitVec 5) : Loopy :=
  loopy (fineY r) (nametableY r) (nametableX r) (coarseY r) x
/-- The register with `coarseY` written. -/
def withCoarseY (r : Loopy) (y : BitVec 5) : Loopy :=
  loopy (fineY r) (nametableY r) (nametableX r) y (coarseX r)
/-- The register with `nametableX` written. -/
def withNametableX (r : Loopy) (n : BitVec 1) : Loopy :=
  loopy (fineY r) (nametableY r) n (coarseY r) (coarseX r)
/-- The register with `nametableY` written. -/
def withNametableY (r : Loopy) (n : BitVec 1) : Loopy :=
  loopy (fineY r) n (nametableX r) (coarseY r) (coarseX r)
/-- The register with `fineY` written. -/
def withFineY (r : Loopy) (y : BitVec 3) : Loopy :=
  loopy y (nametableY r) (nametableX r) (coarseY r) (coarseX r)

/-- The address on the PPU bus that `v` stands for; PPU memory looks at its low 14 bits (R43, R95). -/
def Ppu.vAddr (p : Ppu) : Addr := p.v.zeroExtend 16

/-- `v` after a data-port access: plus 1, or plus 32 in increment mode, modulo 0x8000 (R313, D44). -/
def Ppu.nextV (p : Ppu) : Loopy := p.v + (if p.incrementMode then 32 else 1)

/-- `ControlWrite(d)` (R302): the byte is stored, and its two nametable bits are copied to `t` when
`CTRL_WRITE_COPIES_NT`. -/
def Ppu.controlWrite (copies : Bool) (p : Ppu) (d : Byte) : Ppu :=
  { p with
    ctrl := d
    t := if copies then withNametableY (withNametableX p.t (d.extractLsb' 0 1)) (d.extractLsb' 1 1) else p.t }

/-- Mask write (R303). -/
def Ppu.maskWrite (p : Ppu) (d : Byte) : Ppu := { p with mask := d }

/-- The byte a status read returns (R305): the three flags over the low 5 bits of the read buffer. -/
def Ppu.statusByte (p : Ppu) : Byte :=
  BitVec.ofBool p.verticalBlank ++ BitVec.ofBool p.spriteZeroHit ++ BitVec.ofBool p.spriteOverflow ++
    p.dataBuf.extractLsb' 0 5

/-- The side effect of `StatusRead()` (R305): the vertical-blank flag and the write latch are cleared. -/
def Ppu.afterStatusRead (p : Ppu) : Ppu := { p with verticalBlank := false, w := false }

/-- `ScrollWrite(d)` (R308). -/
def Ppu.scrollWrite (p : Ppu) (d : Byte) : Ppu :=
  if p.w then
    { p with t := withCoarseY (withFineY p.t (d.extractLsb' 0 3)) (d.extractLsb' 3 5), w := false }
  else
    { p with fineX := d.extractLsb' 0 3, t := withCoarseX p.t (d.extractLsb' 3 5), w := true }

/-- `AddressWrite(d)` (R309): the first write sets bits 13:8 of `t` and clears bit 14; the second sets bits
7:0 and copies `t` to `v`. -/
def Ppu.addressWrite (p : Ppu) (d : Byte) : Ppu :=
  if p.w then
    let t := p.t.extractLsb' 8 7 ++ d
    { p with t := t, v := t, w := false }
  else
    { p with t := 0#1 ++ d.extractLsb' 0 6 ++ p.t.extractLsb' 0 8, w := true }

/-- The byte `DataRead()` returns (R313): the buffer, but the addressed byte itself on a palette address. -/
def State.dataReadByte (st : State) : Byte :=
  if st.ppu.vAddr.toNat % 0x4000 ≥ 0x3F00 then st.ppuRead st.ppu.vAddr else st.ppu.dataBuf

/-- The side effect of `DataRead()` (R313): the buffer is refilled and `v` incremented. -/
def State.afterDataRead (st : State) : State :=
  st.setPpu { st.ppu with dataBuf := st.ppuRead st.ppu.vAddr, v := st.ppu.nextV }

/-- `DataWrite(d)` (R314). -/
def State.dataWrite (st : State) (d : Byte) : State :=
  let st' := st.ppuWrite st.ppu.vAddr d
  st'.setPpu { st'.ppu with v := st.ppu.nextV }

/-- `PpuPortRead(p)` (R301): the byte, and the state after the read's side effects. Ports 3 to 6 read 0x00
(R306, R310). -/
def State.ppuPortRead (st : State) (port : BitVec 3) : Byte × State :=
  if port = 0 then (st.ppu.ctrl, st)
  else if port = 1 then (st.ppu.mask, st)
  else if port = 2 then (st.ppu.statusByte, st.setPpu st.ppu.afterStatusRead)
  else if port = 7 then (st.dataReadByte, st.afterDataRead)
  else (0x00, st)

/-- `PpuPortWrite(p, d)` (R301); writes to ports 2, 3, 4 change nothing (R306, R307). -/
def State.ppuPortWrite (st : State) (port : BitVec 3) (d : Byte) : State :=
  if port = 0 then st.setPpu (st.ppu.controlWrite st.cfg.ctrlWriteCopiesNt d)
  else if port = 1 then st.setPpu (st.ppu.maskWrite d)
  else if port = 5 then st.setPpu (st.ppu.scrollWrite d)
  else if port = 6 then st.setPpu (st.ppu.addressWrite d)
  else if port = 7 then st.dataWrite d
  else st

end Sys2Proof.Machine
end

