-- ==== Sys2Proof/Machine/Ops.lean ====
section
/-! DEFINITION. The CPU bus, the stack, taking an interrupt and returning from one, and reset
(20_memory.md R71 to R82, 10_state.md R23, 60_exceptions.md, 70_reset_and_hazards.md R430). -/

namespace Sys2Proof.Machine

/-! ## The CPU bus -/

/-- The offset into `PRG` of a CPU address in 0x8000..0xFFFF: masked by 0x3FFF or 0x7FFF (R81). -/
def prgOffset (b : PrgBanks) (a : Addr) : Nat :=
  match b with
  | .one => a.toNat % 0x4000
  | .two => a.toNat % 0x8000

/-- `Mapper0CpuRead(a)` and `Mapper0CpuWrite(a)`: the mapped offset where the mapper handles the address
(R81, R82). -/
def mapper0Cpu (b : PrgBanks) (a : Addr) : Option Nat :=
  if 0x8000 ≤ a.toNat then some (prgOffset b a) else none

/-- The RAM cell of an address in 0x0000..0x1FFF: `a & 0x07FF` (R74). -/
def ramIndex (a : Addr) : Nat := a.toNat % 0x800

/-- The PPU port of an address in 0x2000..0x3FFF: `a & 0x0007` (R75). -/
def portOf (a : Addr) : BitVec 3 := a.extractLsb' 0 3

/-- `BusRead(a)` (R72): the byte, and the state after the side effects of a port read (R103). Addresses
0x4000..0x7FFF read 0x00 (R76). -/
def State.busRead (st : State) (a : Addr) : Byte × State :=
  match mapper0Cpu st.cfg.prgBanks a with
  | some off => (Cells.read st.prg off, st)
  | none =>
    if a.toNat ≤ 0x1FFF then (Cells.read st.ram (ramIndex a), st)
    else if a.toNat ≤ 0x3FFF then st.ppuPortRead (portOf a)
    else (0x00, st)

/-- `BusWrite(a, d)` (R73): a write to program ROM changes nothing unless `PRG_WRITABLE`; a write to
0x4000..0x7FFF is dropped (R76). -/
def State.busWrite (st : State) (a : Addr) (d : Byte) : State :=
  match mapper0Cpu st.cfg.prgBanks a with
  | some off => if st.cfg.prgWritable then st.setPrg (Cells.write st.prg off d) else st
  | none =>
    if a.toNat ≤ 0x1FFF then st.setRam (Cells.write st.ram (ramIndex a) d)
    else if a.toNat ≤ 0x3FFF then st.ppuPortWrite (portOf a) d
    else st

/-- `MemRead(a, 2)`: the little-endian word at `a`, low byte read first (00_scope.md R12, R100). -/
def State.memRead16 (st : State) (a : Addr) : Addr × State :=
  let lo := st.busRead a
  let hi := lo.2.busRead (a + 1)
  (wordOf lo.1 hi.1, hi.2)

/-! ## The stack (10_state.md R21, R23) -/

/-- The address of the stack byte that `S = s` selects: 0x0100 + s. -/
def stackAddr (s : Byte) : Addr := wordOf s 0x01

/-- `Push(v)`: write, then decrement `S`. -/
def State.push (st : State) (v : Byte) : State :=
  let st' := st.busWrite (stackAddr st.cpu.s) v
  st'.setS (st'.cpu.s - 1)

/-- `Pull()`: increment `S`, then read. -/
def State.pull (st : State) : Byte × State :=
  (st.setS (st.cpu.s + 1)).busRead (stackAddr (st.cpu.s + 1))

/-- A word pushed high byte first. -/
def State.push16 (st : State) (w : Addr) : State := (st.push (highByte w)).push (lowByte w)

/-- A word pulled low byte first. -/
def State.pull16 (st : State) : Addr × State :=
  let lo := st.pull
  let hi := lo.2.pull
  (wordOf lo.1 hi.1, hi.2)

/-- `PC <- MemRead(vector, 2)`. -/
def State.jumpThrough (st : State) (vector : Addr) : State :=
  let target := st.memRead16 vector
  target.2.setPc target.1

/-! ## Taking an interrupt and returning from one (60_exceptions.md) -/

/-- The NMI vector (R409). -/
def nmiVector : Addr := 0xFFFA
/-- The reset vector (R409). -/
def resetVector : Addr := 0xFFFC
/-- The IRQ and BRK vector (R409). -/
def irqVector : Addr := 0xFFFE

/-- `InterruptEntry(vector, cycles)`, the sequence of IRQ and NMI (R406): `PC` pushed, B cleared, U and I
set in the live register, the live register pushed, `PC` loaded from the vector, `countdown` overwritten. -/
def State.interruptEntry (st : State) (vector : Addr) (cycles : Nat) : State :=
  let st1 := st.push16 st.cpu.pc
  let st2 := ((st1.setFlag .B false).setFlag .U true).setFlag .I true
  let st3 := st2.push st2.cpu.p
  (st3.jumpThrough vector).setCountdown cycles

/-- `NonMaskableInterrupt()` (R405). -/
def State.nonMaskableInterrupt (st : State) : State := st.interruptEntry nmiVector 8

/-- `Interrupt()`, the host's maskable interrupt request (R403): no effect while I is set. -/
def State.interrupt (st : State) : State :=
  if st.flag .I then st else st.interruptEntry irqVector 7

/-- `BRK_RETURN_OFFSET - 2` (R262). -/
def brkExtra (o : BrkReturnOffset) : Addr :=
  match o with
  | .two => 0
  | .three => 1

/-- Entry by BRK (45_stack_flags_system.md R262), with `PC` past the padding byte: I is set before the
pushes, the pushed status has B and U set, the live B is cleared after. -/
def State.brkEntry (st : State) : State :=
  let r := st.cpu.pc + brkExtra st.cfg.brkReturnOffset
  let st1 := (st.setFlag .I true).push16 r
  let st2 := st1.push (pushedWithBreak st1.cpu.p)
  (st2.setFlag .B false).jumpThrough irqVector

/-- Return from interrupt (R263, 60_exceptions.md R411): `P`, then `PC` low, high. -/
def State.returnFromInterrupt (st : State) : State :=
  let p := st.pull
  let st1 := p.2.setP (rtiStatus p.1)
  let target := st1.pull16
  target.2.setPc target.1

/-! ## Reset -/

/-- `CpuReset()` (70_reset_and_hazards.md R430). -/
def State.cpuReset (st : State) : State :=
  let vector := st.memRead16 resetVector
  { vector.2 with cpu := vector.2.cpu.afterReset vector.1 }

/-- `BusReset()` (52_system_clock.md R378). -/
def State.busReset (st : State) : State := st.cpuReset.setSysCounter 0

end Sys2Proof.Machine
end

