-- ==== Sys2Proof/Machine/Operands.lean ====
section
/-! DEFINITION. The 12 addressing modes, `Fetch()`, the write-back target, and the frame every instruction
shares: addressing mode, operation, countdown (40_addressing_modes.md, 30_encoding.md R132). The operand
bytes are in the operand form; `PC` is the address of the next sequential instruction (R22). -/

namespace Sys2Proof.Machine

/-- The zero-page address of a byte, 0x0000..0x00FF (R122). -/
def zeroPage (b : Byte) : Addr := b.zeroExtend 16

/-- A word plus an index register, modulo 65536 (R157, R158, R161). -/
def indexed (w : Addr) (r : Byte) : Addr := w + r.zeroExtend 16

/-- The page-cross signal of an indexed address: its high byte differs from the base's (R157). -/
def crosses (base ea : Addr) : Bool := decide (highByte ea ≠ highByte base)

/-- The address of the high byte of an indirect jump's target: the start of the same page when the pointer's
low byte is 0xFF (R159). -/
def indirectHigh (p : Addr) : Addr := if lowByte p = 0xFF then wordOf 0x00 (highByte p) else p + 1

/-- A pointer in page 0, each byte wrapped separately (R160, R161). -/
def State.zeroPagePointer (st : State) (b : Byte) : Addr × State :=
  let lo := st.busRead (zeroPage b)
  let hi := lo.2.busRead (zeroPage (b + 1))
  (wordOf lo.1 hi.1, hi.2)

/-- The addressing mode procedure: the signal `s1` and the state with `ea`, `rel` or `fetched` set (R150 to
R162). -/
def addrMode (o : Operand) (st : State) : Bool × State :=
  match o with
  | .imp => (false, st.setFetched st.cpu.a)
  | .imm _ => (false, st.setEa (st.cpu.pc - 1))
  | .pad => (false, st.setEa (st.cpu.pc - 1))
  | .zp0 b => (false, st.setEa (zeroPage b))
  | .zpx b => (false, st.setEa (zeroPage (b + st.cpu.x)))
  | .zpy b => (false, st.setEa (zeroPage (b + st.cpu.y)))
  | .rel b => (false, st.setRel (b.signExtend 16))
  | .abs w => (false, st.setEa w)
  | .abx w => (crosses w (indexed w st.cpu.x), st.setEa (indexed w st.cpu.x))
  | .aby w => (crosses w (indexed w st.cpu.y), st.setEa (indexed w st.cpu.y))
  | .ind p =>
    let lo := st.busRead p
    let hi := lo.2.busRead (indirectHigh p)
    (false, hi.2.setEa (wordOf lo.1 hi.1))
  | .izx b =>
    let p := st.zeroPagePointer (b + st.cpu.x)
    (false, p.2.setEa p.1)
  | .izy b =>
    let p := st.zeroPagePointer b
    (crosses p.1 (indexed p.1 st.cpu.y), p.2.setEa (indexed p.1 st.cpu.y))

/-- `Fetch()`: the operand value, and the state after the read (R163). The byte of a read immediate operand
was read with the instruction (log 7). -/
def fetch (o : Operand) (st : State) : Byte × State :=
  match o with
  | .imp => (st.cpu.a, st.setFetched st.cpu.a)
  | .imm b => (b, st.setFetched b)
  | _ =>
    let r := st.busRead st.cpu.ea
    (r.1, r.2.setFetched r.1)

/-- `WriteBack(r)`: the accumulator in mode IMP, the byte at `ea` otherwise (R164). -/
def writeBack (o : Operand) (r : Byte) (st : State) : State :=
  match o with
  | .imp => st.setA r
  | _ => st.busWrite st.cpu.ea r

/-- What an operation answers: the state, the signal `s2`, and the branch cycles `b` (00_scope.md R14). -/
structure OpResult where
  state : State
  s2 : Bool
  b : Nat

/-- The end of the instruction step: `countdown <- base + (s1 & s2) + b; P.U <- 1` (R132). -/
def complete (base : Nat) (s1 : Bool) (r : OpResult) : State :=
  (r.state.setCountdown (base + carryValue (s1 && r.s2) + r.b)).setFlag .U true

/-- An instruction: its addressing mode, then its operation, then the countdown (R132). -/
def runInstr (base : Nat) (o : Operand) (op : State → OpResult) (st : State) : Result :=
  let m := addrMode o st
  .next (complete base m.1 (op m.2))

/-- An operation that returns no signal. -/
def quiet (st : State) : OpResult := ⟨st, false, 0⟩

/-- An operation that signals a possible extra cycle (R126). -/
def signalling (st : State) : OpResult := ⟨st, true, 0⟩

end Sys2Proof.Machine
end

