-- ==== Sys2Proof/Machine/Arith.lean ====
section
/-! DEFINITION. Arithmetic, logic, compare, increment and decrement (42_arithmetic_logic.md R190 to R208).
The Decimal flag is read by none of them (R192). -/

namespace Sys2Proof.Machine

/-- `A <- A + m + C` with the flags C, Z, V, N, the old `A` and C in all of them (R193). -/
def State.addToA (st : State) (m : Byte) : State :=
  (st.setAddFlags st.cpu.a m (st.flag .C)).setA (addByte st.cpu.a m (st.flag .C))

/-- ADC (R193), `s2 = 1`. -/
def execAdc (o : Operand) (st : State) : Result :=
  runInstr (baseOf adcEncodings o.mode) o
    (fun s => let m := fetch o s; signalling (m.2.addToA m.1)) st

/-- SBC: ADC of the complemented operand (R194), `s2 = 1`. -/
def execSbc (o : Operand) (st : State) : Result :=
  runInstr (baseOf sbcEncodings o.mode) o
    (fun s => let m := fetch o s; signalling (m.2.addToA (m.1 ^^^ 0xFF))) st

/-- AND: `A <- A & Fetch(); SetZN(A)` (R195), `s2 = 1`. -/
def execAnd (o : Operand) (st : State) : Result :=
  runInstr (baseOf andEncodings o.mode) o
    (fun s => let m := fetch o s; let r := m.2.cpu.a &&& m.1; signalling ((m.2.setA r).setZN r)) st

/-- ORA: `A <- A | Fetch(); SetZN(A)` (R196), `s2 = 1`. -/
def execOra (o : Operand) (st : State) : Result :=
  runInstr (baseOf oraEncodings o.mode) o
    (fun s => let m := fetch o s; let r := m.2.cpu.a ||| m.1; signalling ((m.2.setA r).setZN r)) st

/-- EOR: `A <- A ^ Fetch(); SetZN(A)` (R197), `s2 = 1`. -/
def execEor (o : Operand) (st : State) : Result :=
  runInstr (baseOf eorEncodings o.mode) o
    (fun s => let m := fetch o s; let r := m.2.cpu.a ^^^ m.1; signalling ((m.2.setA r).setZN r)) st

/-- BIT (R198). -/
def execBit (o : Operand) (st : State) : Result :=
  runInstr (baseOf bitEncodings o.mode) o
    (fun s => let m := fetch o s; quiet (m.2.setBitFlags m.2.cpu.a m.1)) st

/-- CMP (R199), `s2 = 1`. -/
def execCmp (o : Operand) (st : State) : Result :=
  runInstr (baseOf cmpEncodings o.mode) o
    (fun s => let m := fetch o s; signalling (m.2.setCompareFlags m.2.cpu.a m.1)) st

/-- CPX (R200). -/
def execCpx (o : Operand) (st : State) : Result :=
  runInstr (baseOf cpxEncodings o.mode) o
    (fun s => let m := fetch o s; quiet (m.2.setCompareFlags m.2.cpu.x m.1)) st

/-- CPY (R201). -/
def execCpy (o : Operand) (st : State) : Result :=
  runInstr (baseOf cpyEncodings o.mode) o
    (fun s => let m := fetch o s; quiet (m.2.setCompareFlags m.2.cpu.y m.1)) st

/-- INC: one read and one write of `ea`, then Z and N of the written value (R202). -/
def execInc (o : Operand) (st : State) : Result :=
  runInstr (baseOf incEncodings o.mode) o
    (fun s => let m := fetch o s; quiet ((m.2.busWrite m.2.cpu.ea (m.1 + 1)).setZN (m.1 + 1))) st

/-- DEC: one read and one write of `ea`, then Z and N of the written value (R203). -/
def execDec (o : Operand) (st : State) : Result :=
  runInstr (baseOf decEncodings o.mode) o
    (fun s => let m := fetch o s; quiet ((m.2.busWrite m.2.cpu.ea (m.1 - 1)).setZN (m.1 - 1))) st

/-- INX (R204). -/
def execInx (st : State) : Result :=
  runInstr 2 .imp (fun s => quiet ((s.setX (s.cpu.x + 1)).setZN (s.cpu.x + 1))) st

/-- INY (R205). -/
def execIny (st : State) : Result :=
  runInstr 2 .imp (fun s => quiet ((s.setY (s.cpu.y + 1)).setZN (s.cpu.y + 1))) st

/-- DEX (R206). -/
def execDex (st : State) : Result :=
  runInstr 2 .imp (fun s => quiet ((s.setX (s.cpu.x - 1)).setZN (s.cpu.x - 1))) st

/-- DEY (R207). -/
def execDey (st : State) : Result :=
  runInstr 2 .imp (fun s => quiet ((s.setY (s.cpu.y - 1)).setZN (s.cpu.y - 1))) st

end Sys2Proof.Machine
end

