-- ==== Sys2Proof/Machine/Branch.lean ====
section
/-! DEFINITION. Branches, jumps, call and return (44_branch_jump.md R230 to R242). -/

namespace Sys2Proof.Machine

/-- `Branch(cond)` (R230): a taken branch sets `ea` and `PC` to `PC + rel` and adds one cycle, two when the
target's page is not that of the next instruction (D9). -/
def branchIf (cond : Bool) (st : State) : OpResult :=
  if cond then
    let target := st.cpu.pc + st.cpu.rel
    ⟨(st.setEa target).setPc target, false, 1 + carryValue (crosses st.cpu.pc target)⟩
  else quiet st

/-- BCC: `Branch(P.C = 0)` (R231). -/
def execBcc (off : Byte) (st : State) : Result :=
  runInstr 2 (.rel off) (fun s => branchIf (!s.flag .C) s) st

/-- BCS: `Branch(P.C = 1)` (R232). -/
def execBcs (off : Byte) (st : State) : Result :=
  runInstr 2 (.rel off) (fun s => branchIf (s.flag .C) s) st

/-- BEQ: `Branch(P.Z = 1)` (R233). -/
def execBeq (off : Byte) (st : State) : Result :=
  runInstr 2 (.rel off) (fun s => branchIf (s.flag .Z) s) st

/-- BNE: `Branch(P.Z = 0)` (R234). -/
def execBne (off : Byte) (st : State) : Result :=
  runInstr 2 (.rel off) (fun s => branchIf (!s.flag .Z) s) st

/-- BMI: `Branch(P.N = 1)` (R235). -/
def execBmi (off : Byte) (st : State) : Result :=
  runInstr 2 (.rel off) (fun s => branchIf (s.flag .N) s) st

/-- BPL: `Branch(P.N = 0)` (R236). -/
def execBpl (off : Byte) (st : State) : Result :=
  runInstr 2 (.rel off) (fun s => branchIf (!s.flag .N) s) st

/-- BVC: `Branch(P.V = 0)` (R237). -/
def execBvc (off : Byte) (st : State) : Result :=
  runInstr 2 (.rel off) (fun s => branchIf (!s.flag .V) s) st

/-- BVS: `Branch(P.V = 1)` (R238). -/
def execBvs (off : Byte) (st : State) : Result :=
  runInstr 2 (.rel off) (fun s => branchIf (s.flag .V) s) st

/-- JMP: `PC <- ea`; the byte at the target is not read (R239). -/
def execJmp (o : Operand) (st : State) : Result :=
  runInstr (baseOf jmpEncodings o.mode) o (fun s => quiet (s.setPc s.cpu.ea)) st

/-- JSR: the address of its last byte is pushed, high byte first, then `PC <- ea` (R240). -/
def execJsr (target : Addr) (st : State) : Result :=
  runInstr 6 (.abs target) (fun s => let s' := s.push16 (s.cpu.pc - 1); quiet (s'.setPc s'.cpu.ea)) st

/-- RTS: the pulled word plus 1 (R241). -/
def execRts (st : State) : Result :=
  runInstr 6 .imp (fun s => let w := s.pull16; quiet (w.2.setPc (w.1 + 1))) st

end Sys2Proof.Machine
end

