-- ==== Sys2Proof/Machine/LoadStore.lean ====
section
/-! DEFINITION. Load, store and register transfer (41_load_store_transfer.md R170 to R182). -/

namespace Sys2Proof.Machine

/-- LDA: `A <- Fetch(); SetZN(A)`, `s2 = 1` (R170). -/
def execLda (o : Operand) (st : State) : Result :=
  runInstr (baseOf ldaEncodings o.mode) o
    (fun s => let m := fetch o s; signalling ((m.2.setA m.1).setZN m.1)) st

/-- LDX: `X <- Fetch(); SetZN(X)`, `s2 = 1` (R171). -/
def execLdx (o : Operand) (st : State) : Result :=
  runInstr (baseOf ldxEncodings o.mode) o
    (fun s => let m := fetch o s; signalling ((m.2.setX m.1).setZN m.1)) st

/-- LDY: `Y <- Fetch(); SetZN(Y)`, `s2 = 1` (R172). -/
def execLdy (o : Operand) (st : State) : Result :=
  runInstr (baseOf ldyEncodings o.mode) o
    (fun s => let m := fetch o s; signalling ((m.2.setY m.1).setZN m.1)) st

/-- STA: `BusWrite(ea, A)`; no read of the target (R173). -/
def execSta (o : Operand) (st : State) : Result :=
  runInstr (baseOf staEncodings o.mode) o (fun s => quiet (s.busWrite s.cpu.ea s.cpu.a)) st

/-- STX: `BusWrite(ea, X)` (R174). -/
def execStx (o : Operand) (st : State) : Result :=
  runInstr (baseOf stxEncodings o.mode) o (fun s => quiet (s.busWrite s.cpu.ea s.cpu.x)) st

/-- STY: `BusWrite(ea, Y)` (R175). -/
def execSty (o : Operand) (st : State) : Result :=
  runInstr (baseOf styEncodings o.mode) o (fun s => quiet (s.busWrite s.cpu.ea s.cpu.y)) st

/-- TAX: `X <- A; SetZN(X)` (R176). -/
def execTax (st : State) : Result :=
  runInstr 2 .imp (fun s => quiet ((s.setX s.cpu.a).setZN s.cpu.a)) st

/-- TAY: `Y <- A; SetZN(Y)` (R177). -/
def execTay (st : State) : Result :=
  runInstr 2 .imp (fun s => quiet ((s.setY s.cpu.a).setZN s.cpu.a)) st

/-- TXA: `A <- X; SetZN(A)` (R178). -/
def execTxa (st : State) : Result :=
  runInstr 2 .imp (fun s => quiet ((s.setA s.cpu.x).setZN s.cpu.x)) st

/-- TYA: `A <- Y; SetZN(A)` (R179). -/
def execTya (st : State) : Result :=
  runInstr 2 .imp (fun s => quiet ((s.setA s.cpu.y).setZN s.cpu.y)) st

/-- TSX: `X <- S; SetZN(X)` (R180). -/
def execTsx (st : State) : Result :=
  runInstr 2 .imp (fun s => quiet ((s.setX s.cpu.s).setZN s.cpu.s)) st

/-- TXS: `S <- X`, no flags (R181). -/
def execTxs (st : State) : Result :=
  runInstr 2 .imp (fun s => quiet (s.setS s.cpu.x)) st

end Sys2Proof.Machine
end

