-- ==== Sys2Proof/Machine/Shift.lean ====
section
/-! DEFINITION. Shifts and rotates (43_shift_rotate.md R220 to R224): the operand is `Fetch()`, the flags
C, Z, N are set, the result goes to `A` or back to `ea`. -/

namespace Sys2Proof.Machine

/-- Flags, then write-back, of a shift that pushed `out` out and gave `r` (R220). -/
def shiftResult (o : Operand) (out : Bool) (r : Byte) (st : State) : OpResult :=
  quiet (writeBack o r (st.setShiftFlags out r))

/-- ASL (R221). -/
def execAsl (o : Operand) (st : State) : Result :=
  runInstr (baseOf aslEncodings o.mode) o
    (fun s => let m := fetch o s; shiftResult o (m.1.getLsbD 7) (aslByte m.1) m.2) st

/-- LSR (R222). -/
def execLsr (o : Operand) (st : State) : Result :=
  runInstr (baseOf lsrEncodings o.mode) o
    (fun s => let m := fetch o s; shiftResult o (m.1.getLsbD 0) (lsrByte m.1) m.2) st

/-- ROL (R223). -/
def execRol (o : Operand) (st : State) : Result :=
  runInstr (baseOf rolEncodings o.mode) o
    (fun s => let m := fetch o s; shiftResult o (m.1.getLsbD 7) (rolByte m.1 (m.2.flag .C)) m.2) st

/-- ROR (R224). -/
def execRor (o : Operand) (st : State) : Result :=
  runInstr (baseOf rorEncodings o.mode) o
    (fun s => let m := fetch o s; shiftResult o (m.1.getLsbD 0) (rorByte m.1 (m.2.flag .C)) m.2) st

end Sys2Proof.Machine
end

