-- ==== Sys2Proof/Machine/System.lean ====
section
/-! DEFINITION. Stack, flag and system instructions and the placeholders of the unofficial bytes
(45_stack_flags_system.md R250 to R265, 30_encoding.md R127, R128). -/

namespace Sys2Proof.Machine

/-- PHA: `Push(A)` (R250). -/
def execPha (st : State) : Result :=
  runInstr 3 .imp (fun s => quiet (s.push s.cpu.a)) st

/-- PHP: `Push(P | 0x30); P.B <- 0` (R251). -/
def execPhp (st : State) : Result :=
  runInstr 3 .imp (fun s => quiet ((s.push (pushedWithBreak s.cpu.p)).setFlag .B false)) st

/-- PLA: `A <- Pull(); SetZN(A)` (R252). -/
def execPla (st : State) : Result :=
  runInstr 4 .imp (fun s => let m := s.pull; quiet ((m.2.setA m.1).setZN m.1)) st

/-- PLP: `P <- Pull() | 0x20` (R253). -/
def execPlp (st : State) : Result :=
  runInstr 4 .imp (fun s => let m := s.pull; quiet (m.2.setP (plpStatus m.1))) st

/-- CLC (R254). -/
def execClc (st : State) : Result :=
  runInstr 2 .imp (fun s => quiet (s.setFlag .C false)) st

/-- SEC (R255). -/
def execSec (st : State) : Result :=
  runInstr 2 .imp (fun s => quiet (s.setFlag .C true)) st

/-- CLI (R256). -/
def execCli (st : State) : Result :=
  runInstr 2 .imp (fun s => quiet (s.setFlag .I false)) st

/-- SEI (R257). -/
def execSei (st : State) : Result :=
  runInstr 2 .imp (fun s => quiet (s.setFlag .I true)) st

/-- CLD (R258). -/
def execCld (st : State) : Result :=
  runInstr 2 .imp (fun s => quiet (s.setFlag .D false)) st

/-- SED (R259). -/
def execSed (st : State) : Result :=
  runInstr 2 .imp (fun s => quiet (s.setFlag .D true)) st

/-- CLV (R260). -/
def execClv (st : State) : Result :=
  runInstr 2 .imp (fun s => quiet (s.setFlag .V false)) st

/-- NOP, byte 0xEA: nothing changes, no signal (R261). -/
def execNop (st : State) : Result :=
  runInstr 2 .imp (fun s => quiet s) st

/-- BRK: entry through the IRQ vector (R262). -/
def execBrk (st : State) : Result :=
  runInstr 7 .pad (fun s => quiet s.brkEntry) st

/-- RTI: return from interrupt (R263). -/
def execRti (st : State) : Result :=
  runInstr 6 .imp (fun s => quiet s.returnFromInterrupt) st

/-- XXX, the placeholder that performs nothing but takes its listed cycles (R264). -/
def execXxx (opcode : Byte) (o : Operand) (st : State) : Result :=
  runInstr (st.cfg.unofficialEntry opcode).base o (fun s => quiet s) st

/-- The six NOP bytes that signal a possible extra cycle (R128, R261). -/
def signallingNopBytes : List Byte := [0x1C, 0x3C, 0x5C, 0x7C, 0xDC, 0xFC]

/-- NOP as the operation of an unofficial byte: nothing changes, and six bytes give the signal (R128,
R261). -/
def execUnofficialNop (opcode : Byte) (o : Operand) (st : State) : Result :=
  runInstr (st.cfg.unofficialEntry opcode).base o
    (fun s => ⟨s, signallingNopBytes.contains opcode, 0⟩) st

end Sys2Proof.Machine
end

