-- ==== Sys2Proof/Machine/Fetch.lean ====
section
/-! DEFINITION. Reading an instruction's bytes (30_encoding.md R132, first half). Each byte is one `BusRead`
at `PC` with its side effects (20_memory.md R103, R113); a skipped IMM byte is not read (R151). -/

namespace Sys2Proof.Machine

/-- `NextByte()` (40_addressing_modes.md). -/
def State.nextByte (st : State) : Byte × State :=
  let r := st.busRead st.cpu.pc
  (r.1, r.2.setPc (st.cpu.pc + 1))

/-- The operand bytes of an instruction with descriptor `d`: the instruction they make, and the state with
`PC` past them. -/
def State.fetchOperands (st : State) (d : Descriptor) : Instr × State :=
  if d.mode = .IMM ∧ d.readsImm = false then (d.build 0 0, st.setPc (st.cpu.pc + 1))
  else
    match d.mode.operandBytes with
    | 0 => (d.build 0 0, st)
    | 1 =>
      let b1 := st.nextByte
      (d.build b1.1 0, b1.2)
    | _ =>
      let b1 := st.nextByte
      let b2 := b1.2.nextByte
      (d.build b1.1 b2.1, b2.2)

/-- The opcode byte, `PC` past it, `P.U <- 1`, the descriptor, then the operand bytes (R132): the
instruction, and the state in which it is executed. -/
def State.fetchInstr (st : State) : Instr × State :=
  let op := st.nextByte
  let d := descriptor st.cfg op.1
  (((op.2.setFlag .U true).setOpcode op.1).setMode d.mode).fetchOperands d

end Sys2Proof.Machine
end

