-- ==== Sys2Proof/Machine/Rendering.lean ====
section
/-! DEFINITION. The PPU dot state machine: fetch windows, background fetches, scroll operations, vertical
blank and NMI request, compositor, counters (51_ppu_rendering.md R330 to R353). -/

namespace Sys2Proof.Machine

/-! ## Regions and windows (R331, R332) -/

/-- The visible and pre-render region: scanlines -1..239 (R331). -/
def Ppu.inRegion (p : Ppu) : Bool := decide (-1 ≤ p.scanline ∧ p.scanline ≤ 239)

/-- The fetch windows: dots 2..257 and 321..337 (R332). -/
def Ppu.inFetchWindow (p : Ppu) : Bool :=
  decide ((2 ≤ p.dot ∧ p.dot ≤ 257) ∨ (321 ≤ p.dot ∧ p.dot ≤ 337))

/-- The condition that gates the scroll operations: background or sprites enabled (R345). -/
def Ppu.rendering (p : Ppu) : Bool := p.renderBackground || p.renderSprites

/-! ## Scroll operations (R341 to R345) -/

/-- `v` after `IncrementScrollX()` (R341). -/
def scrollXIncremented (v : Loopy) : Loopy :=
  if coarseX v = 31 then withNametableX (withCoarseX v 0) (~~~nametableX v)
  else withCoarseX v (coarseX v + 1)

/-- `v` after `IncrementScrollY()` (R342): coarse Y wraps after 29 with a toggle, and after 31 without. -/
def scrollYIncremented (v : Loopy) : Loopy :=
  if fineY v ≠ 7 then withFineY v (fineY v + 1)
  else
    let v' := withFineY v 0
    if coarseY v = 29 then withNametableY (withCoarseY v' 0) (~~~nametableY v)
    else if coarseY v = 31 then withCoarseY v' 0
    else withCoarseY v' (coarseY v + 1)

/-- `v` after `TransferAddressX()` (R343). -/
def transferredX (v t : Loopy) : Loopy := withNametableX (withCoarseX v (coarseX t)) (nametableX t)

/-- `v` after `TransferAddressY()` (R344). -/
def transferredY (v t : Loopy) : Loopy :=
  withCoarseY (withNametableY (withFineY v (fineY t)) (nametableY t)) (coarseY t)

/-- A scroll operation takes effect only while rendering (R345). -/
def Ppu.scrollIf (p : Ppu) (v' : Loopy) : Ppu := if p.rendering then { p with v := v' } else p

/-- `IncrementScrollX()` (R341). -/
def Ppu.incrementScrollX (p : Ppu) : Ppu := p.scrollIf (scrollXIncremented p.v)
/-- `IncrementScrollY()` (R342). -/
def Ppu.incrementScrollY (p : Ppu) : Ppu := p.scrollIf (scrollYIncremented p.v)
/-- `TransferAddressX()` (R343). -/
def Ppu.transferAddressX (p : Ppu) : Ppu := p.scrollIf (transferredX p.v p.t)
/-- `TransferAddressY()` (R344). -/
def Ppu.transferAddressY (p : Ppu) : Ppu := p.scrollIf (transferredY p.v p.t)

/-! ## The fetch sequence (R334 to R340) -/

/-- The low byte of a shift register replaced (R335). -/
def loadLow (r : BitVec 16) (b : Byte) : BitVec 16 := r.extractLsb' 8 8 ++ b

/-- Eight equal bits (R335). -/
def eightOf (b : Bool) : Byte := if b then 0xFF else 0x00

/-- `LoadBackgroundShifters()` (R335). -/
def Ppu.loadBackgroundShifters (p : Ppu) : Ppu :=
  { p with
    bgShifterPatternLo := loadLow p.bgShifterPatternLo p.bgNextTileLsb
    bgShifterPatternHi := loadLow p.bgShifterPatternHi p.bgNextTileMsb
    bgShifterAttribLo := loadLow p.bgShifterAttribLo (eightOf (p.bgNextTileAttrib.getLsbD 0))
    bgShifterAttribHi := loadLow p.bgShifterAttribHi (eightOf (p.bgNextTileAttrib.getLsbD 1)) }

/-- `ShiftBackground()` (R348). -/
def Ppu.shiftBackground (p : Ppu) : Ppu :=
  { p with
    bgShifterPatternLo := p.bgShifterPatternLo <<< 1
    bgShifterPatternHi := p.bgShifterPatternHi <<< 1
    bgShifterAttribLo := p.bgShifterAttribLo <<< 1
    bgShifterAttribHi := p.bgShifterAttribHi <<< 1 }

/-- The tile id address `0x2000 | (v & 0x0FFF)` (R336). -/
def tileAddr (v : Loopy) : Addr := 0x2#4 ++ v.extractLsb' 0 12

/-- The attribute address: 0x23C0, the nametable bits, and the upper three bits of each coarse coordinate
(R337). -/
def attributeAddr (v : Loopy) : Addr :=
  0x2#4 ++ nametableY v ++ nametableX v ++ 0xF#4 ++ (coarseY v).extractLsb' 2 3 ++ (coarseX v).extractLsb' 2 3

/-- The quadrant's two bits of an attribute byte: shifted right 4 in the bottom tile rows, 2 more in the
right tile columns, masked to 2 bits (R337). -/
def attributeBits (v : Loopy) (a : Byte) : Byte :=
  let a1 := if (coarseY v).getLsbD 1 then a >>> 4 else a
  let a2 := if (coarseX v).getLsbD 1 then a1 >>> 2 else a1
  a2 &&& 0x03

/-- The pattern address of a plane: `(ctrl.patternBackground << 12) + (bgNextTileId << 4) + fineY`, plus 8
for the high plane (R338, R339). -/
def Ppu.patternAddr (p : Ppu) (plane : Addr) : Addr :=
  ((BitVec.ofBool p.patternBackground).zeroExtend 16 <<< 12) + (p.bgNextTileId.zeroExtend 16 <<< 4) +
    (fineY p.v).zeroExtend 16 + plane

/-- `FetchTileId()` (R336). -/
def State.fetchTileId (st : State) : State :=
  st.setPpu { st.ppu with bgNextTileId := st.ppuRead (tileAddr st.ppu.v) }

/-- `FetchAttribute()` (R337). -/
def State.fetchAttribute (st : State) : State :=
  st.setPpu { st.ppu with bgNextTileAttrib := attributeBits st.ppu.v (st.ppuRead (attributeAddr st.ppu.v)) }

/-- `FetchPatternLow()` (R338). -/
def State.fetchPatternLow (st : State) : State :=
  st.setPpu { st.ppu with bgNextTileLsb := st.ppuRead (st.ppu.patternAddr 0) }

/-- `FetchPatternHigh()` (R339). -/
def State.fetchPatternHigh (st : State) : State :=
  st.setPpu { st.ppu with bgNextTileMsb := st.ppuRead (st.ppu.patternAddr 8) }

/-- The action of a fetch-window dot, by the key `(dot - 1) mod 8` (R330, R334, R340). -/
def State.fetchAction (st : State) : State :=
  match (st.ppu.dot - 1) % 8 with
  | 0 => (st.setPpu st.ppu.loadBackgroundShifters).fetchTileId
  | 2 => st.fetchAttribute
  | 4 => st.fetchPatternLow
  | 6 => st.fetchPatternHigh
  | 7 => st.setPpu st.ppu.incrementScrollX
  | _ => st

/-! ## The dot step (R330), sub-step by sub-step -/

/-- `ClearVblank()` at scanline -1, dot 1, when `PPU_CLEAR_VBLANK_AT_PRERENDER` (R333). -/
def State.clearVblankStep (st : State) : State :=
  if st.ppu.scanline = -1 ∧ st.ppu.dot = 1 ∧ st.cfg.ppuClearVblankAtPrerender then
    st.setPpu { st.ppu with verticalBlank := false }
  else st

/-- The shift of the non-default variant, at the start of a fetch-window dot, when the background is on
(R348). -/
def State.earlyShift (st : State) : State :=
  if ¬ st.cfg.ppuShiftEveryDot ∧ st.ppu.renderBackground then st.setPpu st.ppu.shiftBackground else st

/-- The fetch windows (R330, R332). -/
def State.fetchStep (st : State) : State :=
  if st.ppu.inFetchWindow then st.earlyShift.fetchAction else st

/-- The vertical increment at dot 256 (R342). -/
def State.incrementYStep (st : State) : State :=
  if st.ppu.dot = 256 then st.setPpu st.ppu.incrementScrollY else st

/-- The horizontal transfer at dot 257 (R343). -/
def State.transferXStep (st : State) : State :=
  if st.ppu.dot = 257 then st.setPpu st.ppu.transferAddressX else st

/-- The vertical transfer at dots 280..304 of scanline -1 (R344). -/
def State.transferYStep (st : State) : State :=
  if st.ppu.scanline = -1 ∧ 280 ≤ st.ppu.dot ∧ st.ppu.dot ≤ 304 then st.setPpu st.ppu.transferAddressY else st

/-- The actions of the visible and pre-render region, in order (R330, D35). -/
def State.regionStep (st : State) : State :=
  if st.ppu.inRegion then st.clearVblankStep.fetchStep.incrementYStep.transferXStep.transferYStep else st

/-- `SetVblankAndNmi()` at scanline 241, dot 1 (R346). -/
def State.vblankStep (st : State) : State :=
  if st.ppu.scanline = 241 ∧ st.ppu.dot = 1 then
    st.setPpu { st.ppu with
      verticalBlank := true
      nmiPending := st.ppu.nmiPending || st.ppu.enableNmi }
  else st

/-- One bit of a shift register, at the position `0x8000 >> fineX` (R347). -/
def Ppu.sample (p : Ppu) (r : BitVec 16) : Bool := r.getLsbD (15 - p.fineX.toNat)

/-- The pixel's 4-bit palette entry, `(pal << 2) + px`; 0 while the background is off (R347). -/
def Ppu.pixelEntry (p : Ppu) : BitVec 4 :=
  if p.renderBackground then
    BitVec.ofBool (p.sample p.bgShifterAttribHi) ++ BitVec.ofBool (p.sample p.bgShifterAttribLo) ++
      BitVec.ofBool (p.sample p.bgShifterPatternHi) ++ BitVec.ofBool (p.sample p.bgShifterPatternLo)
  else 0

/-- The colour of the pixel: `PpuRead(0x3F00 + (pal << 2) + px) & 0x3F` (R349). -/
def State.pixelColour (st : State) : Colour :=
  (st.ppuRead (0x3F0#12 ++ st.ppu.pixelEntry)).truncate 6

/-- The framebuffer cell of `FB[y][x]` (R50). -/
def fbIndex (x y : Nat) : Nat := y * 256 + x

/-- The framebuffer after the dot: written at (dot - 1, scanline) when that lies in 256 x 240 (R349). -/
def State.fbAfter (st : State) : Cells 6 :=
  if 1 ≤ st.ppu.dot ∧ st.ppu.dot ≤ 256 ∧ 0 ≤ st.ppu.scanline ∧ st.ppu.scanline ≤ 239 then
    Cells.write st.ppu.fb (fbIndex (st.ppu.dot - 1) st.ppu.scanline.toNat) st.pixelColour
  else st.ppu.fb

/-- `Composite()` (R347 to R349): the sample and the colour are taken before the shift. -/
def State.compositeStep (st : State) : State :=
  let p := { st.ppu with fb := st.fbAfter }
  st.setPpu (if st.cfg.ppuShiftEveryDot ∧ p.renderBackground then p.shiftBackground else p)

/-- `AdvanceCounters()` (R350). -/
def Ppu.advanceCounters (p : Ppu) : Ppu :=
  if p.dot + 1 ≥ 341 then
    if p.scanline + 1 ≥ 261 then { p with dot := 0, scanline := -1, frameComplete := true }
    else { p with dot := 0, scanline := p.scanline + 1 }
  else { p with dot := p.dot + 1 }

/-- `PpuClock()`: one dot (R330). -/
def State.ppuClock (st : State) : State :=
  let st' := st.regionStep.vblankStep.compositeStep
  st'.setPpu st'.ppu.advanceCounters

end Sys2Proof.Machine
end

