-- ==== Sys2Proof/Machine/Clock.lean ====
section
/-! DEFINITION. The CPU clock, NMI delivery and the bus clock (52_system_clock.md R370 to R376). -/

namespace Sys2Proof.Machine

/-- `ExecuteInstruction()` (30_encoding.md R132). -/
def executeInstruction (st : State) : Result := exec st.fetchInstr.1 st.fetchInstr.2

/-- The end of every CPU clock: `countdown - 1`, `clockCount + 1` (R373). -/
def State.countClock (st : State) : State :=
  (st.setCountdown (st.cpu.countdown - 1)).setClockCount (st.cpu.clockCount + 1)

/-- What follows an answer: the function on a next state, a stop as it is. -/
def onNext (r : Result) (f : State → State) : Result :=
  match r with
  | .next st => .next (f st)
  | .fault e => .fault e
  | .refused e => .refused e

/-- `CpuClock()` (R373). -/
def cpuClock (st : State) : Result :=
  if st.cpu.countdown = 0 then onNext (executeInstruction st) State.countClock else .next st.countClock

/-- The CPU's part of a bus tick: one CPU clock when `sysCounter` is a multiple of 3 (R370, R371). -/
def cpuPart (st : State) : Result := if st.sysCounter % 3 = 0 then cpuClock st else .next st

/-- NMI delivery at the end of the tick (R376). -/
def State.deliverNmi (st : State) : State :=
  if st.ppu.nmiPending then (st.setPpu { st.ppu with nmiPending := false }).nonMaskableInterrupt else st

/-- The end of a bus tick: NMI delivery, then the counter (R370). -/
def State.endTick (st : State) : State := st.deliverNmi.setSysCounter (st.sysCounter + 1)

/-- `BusClock()`: one PPU dot, the CPU clock on every third tick, NMI delivery, the counter (R370). -/
def busClock (st : State) : Result := onNext (cpuPart st.ppuClock) State.endTick

end Sys2Proof.Machine
end

