-- ==== Sys2Proof/Machine/Step.lean ====
section
/-! DEFINITION. The step of the machine, and placing an instruction where the next step fetches it. -/

namespace Sys2Proof.Machine

/-- One step: one bus clock tick, "the one step of the whole machine" (52_system_clock.md R370). -/
def step : State → Host.Outcome State Fault Refusal := busClock

/-- A byte of code can be stored at this address: work RAM or program ROM. -/
def codeAddress (a : Addr) : Bool := decide (a.toNat ≤ 0x1FFF ∨ 0x8000 ≤ a.toNat)

/-- A byte of code put into the memory that the bus reads at `a`, program ROM included: this is loading a
program from outside the machine, not a bus write. -/
def State.placeByte (st : State) (a : Addr) (b : Byte) : State :=
  match mapper0Cpu st.cfg.prgBanks a with
  | some off => st.setPrg (Cells.write st.prg off b)
  | none => st.setRam (Cells.write st.ram (ramIndex a) b)

/-- The state in which the very next step fetches and runs the instruction whose bits are `w` (bits from
`nbits` on zero): its three bytes stand at `PC`, `countdown` is 0, and `sysCounter` is a multiple of 3, so
that the tick has a CPU clock and that clock fetches (R373). Where one of the three addresses is a PPU port
or unmapped, `PC` is moved to 0x8000 first (log 5). -/
def State.withFetchWord (s : State) (nbits w : Nat) : State :=
  let v := w % 2 ^ nbits
  let pc := s.cpu.pc
  let st := if codeAddress pc && codeAddress (pc + 1) && codeAddress (pc + 2) then s else s.setPc 0x8000
  let st1 := st.placeByte st.cpu.pc (BitVec.ofNat 8 v)
  let st2 := st1.placeByte (st.cpu.pc + 1) (BitVec.ofNat 8 (v / 256))
  let st3 := st2.placeByte (st.cpu.pc + 2) (BitVec.ofNat 8 (v / 65536))
  (st3.setCountdown 0).setSysCounter (s.sysCounter - s.sysCounter % 3)

end Sys2Proof.Machine
end

