-- ==== Sys2Proof/Machine/Launch.lean ====
section
/-! DEFINITION. The launch: the iNES image (20_memory.md R88, R89), the refused configurations
(60_exceptions.md R420), power-on and the first reset (10_state.md R60, 70_reset_and_hazards.md R432). -/

namespace Sys2Proof.Machine

/-- Why a launch is refused: the machine has no initial state for the configuration (R420). -/
inductive LaunchRefusal where
  /-- No cartridge inserted ("cartridge accessed before insertion"). -/
  | noCartridge
  /-- The first four bytes are not 4E 45 53 1A ("bad magic bytes"). -/
  | badMagic
  /-- The mapper id is not 0 ("unsupported mapper"). -/
  | unsupportedMapper
  /-- `PRG_BANKS` is not 1 or 2. -/
  | badPrgBanks
  /-- `CHR_BANKS` is not 1. -/
  | badChrBanks
  /-- The image is too short for both arrays. -/
  | imageTooShort
  deriving DecidableEq, Repr

/-- A cartridge (10_state.md R56): its arrays and its mirroring. -/
structure Cartridge where
  prgBanks : PrgBanks
  mirror : Mirroring
  prg : List Byte
  chr : List Byte
  deriving DecidableEq, Repr

/-- Byte `k` of an image; past the end there is none, and 0x00 stands for it. -/
def imageByte (image : List Byte) (k : Nat) : Byte := image.getD k 0x00

/-- The mapper id: `(byte7 & 0xF0) | (byte6 >> 4)` (R88). -/
def mapperId (image : List Byte) : Byte := (imageByte image 7 &&& 0xF0) ||| (imageByte image 6 >>> 4)

/-- The mirroring bit: byte 6 bit 0 = 1 is vertical (R88, D17). -/
def imageMirroring (image : List Byte) : Mirroring :=
  if (imageByte image 6).getLsbD 0 then .vertical else .horizontal

/-- Where ROM data starts: past the header, and past the trainer when byte 6 bit 2 says there is one (R88). -/
def imageStart (image : List Byte) : Nat := 16 + (if (imageByte image 6).getLsbD 2 then 512 else 0)

/-- `PRG_BANKS` of a header byte (R89). -/
def prgBanksOf (b : Byte) : Option PrgBanks :=
  if b = 1 then some .one else if b = 2 then some .two else none

/-- The size of program ROM. -/
def prgSize : PrgBanks → Nat
  | .one => 16384
  | .two => 32768

/-- The size of character ROM: one bank (R83). -/
def chrSize : Nat := 8192

/-- The cartridge of an iNES image, or why it is refused (R88, R89). -/
def Cartridge.fromINes (image : List Byte) : Except LaunchRefusal Cartridge :=
  if image.take 4 ≠ [0x4E, 0x45, 0x53, 0x1A] then .error .badMagic
  else if mapperId image ≠ 0 then .error .unsupportedMapper
  else match prgBanksOf (imageByte image 4) with
    | none => .error .badPrgBanks
    | some banks =>
      if imageByte image 5 ≠ 1 then .error .badChrBanks
      else if image.length < imageStart image + prgSize banks + chrSize then .error .imageTooShort
      else .ok
        { prgBanks := banks
          mirror := imageMirroring image
          prg := (image.drop (imageStart image)).take (prgSize banks)
          chr := (image.drop (imageStart image + prgSize banks)).take chrSize }

/-- The launch configuration (00_scope.md R7): the cartridge, the other parameters (`params`, whose
`prgBanks` and `mirror` the cartridge overrides), and what the spec leaves open at power-on: contents of work
RAM, nametable RAM, palette RAM and framebuffer, and the CPU registers. -/
structure Launch where
  cartridge : Option Cartridge
  params : Config
  ram0 : List Byte
  nt0 : List Byte
  pal0 : List Byte
  fb0 : List Colour
  cpu0 : Cpu
  deriving DecidableEq, Repr

/-- The state before the first reset (10_state.md R60), with the cartridge inserted (52_system_clock.md
R379). Arrays longer than the memory they fill are cut, shorter ones are followed by zeros (log 17). -/
def State.powerOn (l : Launch) (c : Cartridge) : State where
  cfg := { l.params with prgBanks := c.prgBanks, mirror := c.mirror }
  cpu := l.cpu0
  ram := Cells.ofList (l.ram0.take 2048)
  sysCounter := 0
  ppu := Ppu.powerOn (Cells.ofList (l.nt0.take 2048)) (Cells.ofList (l.pal0.take 32))
    (Cells.ofList (l.fb0.take 61440))
  prg := Cells.ofList (c.prg.take (prgSize c.prgBanks))
  chr := Cells.ofList (c.chr.take chrSize)

/-- The initial state of a run: `BusReset()` on the power-on state; a launch without a cartridge is refused
(R420, 70_reset_and_hazards.md R432). -/
def State.launch (l : Launch) : Except LaunchRefusal State :=
  match l.cartridge with
  | none => .error .noCartridge
  | some c => .ok (State.powerOn l c).busReset

/-- The launch whose initial state is `State.reset`: a blank cartridge, every parameter at its default,
zeros where the spec leaves contents open (log 1, log 2, log 3, log 4). -/
def Launch.blank : Launch where
  cartridge := some { prgBanks := .one, mirror := .horizontal, prg := [], chr := [] }
  params := Config.default
  ram0 := []
  nt0 := []
  pal0 := []
  fb0 := []
  cpu0 := Cpu.blank

end Sys2Proof.Machine
end

