-- ==== Sys2Proof/Machine/HostSurface.lean ====
section
/-! DEFINITION. The host's calls and polls (52_system_clock.md R380, R381). `bus.clock()` is `step`,
`bus.reset()` is `State.busReset`, `cpu.interrupt()` is `State.interrupt`, `bus.insertCartridge(c)` is part
of `State.launch`. -/

namespace Sys2Proof.Machine

/-- The host clears `frameComplete`; that flag only (R381). -/
def State.clearFrameComplete (st : State) : State := st.setPpu { st.ppu with frameComplete := false }

/-- The host's instruction-complete poll: `countdown = 0` (R380, D47). -/
def State.instructionComplete (st : State) : Bool := decide (st.cpu.countdown = 0)

/-- The pixel `FB[y][x]` (R50). -/
def State.pixel (st : State) (x y : Nat) : Colour := Cells.read st.ppu.fb (fbIndex x y)

/-- `ppu.getScreen()`: the framebuffer in colours. `pal64` is the parameter `PAL64`, which the spec leaves
uninterpreted; so is the type of colours (R7, R50, log 11). -/
def State.getScreen {Rgb : Type} (pal64 : Colour → Rgb) (st : State) : List (List Rgb) :=
  (List.range 240).map fun y => (List.range 256).map fun x => pal64 (st.pixel x y)

end Sys2Proof.Machine
end

