-- ==== Sys2Proof/Safety.lean ====
section
/-! DEFINITION. What the host may do to the machine, which states a run reaches, and the invariant of the
machine at a tick boundary. -/

namespace Sys2Proof.Machine

/-- The host's calls between ticks that change state (52_system_clock.md R381). -/
inductive HostCall where
  | clock
  | reset
  | interrupt
  | clearFrameComplete
  deriving DecidableEq, Repr

/-- What a host call does. -/
def hostStep (c : HostCall) (st : State) : Result :=
  match c with
  | .clock => step st
  | .reset => .next st.busReset
  | .interrupt => .next st.interrupt
  | .clearFrameComplete => .next st.clearFrameComplete

/-- A launch whose parameters lie in their value spaces (00_scope.md R7, 93_implementation_defined.md U1). -/
def Launch.valid (l : Launch) : Bool := l.params.valid

/-- The states of the runs: from a launch, by host calls. -/
inductive Reachable : State → Prop where
  | launch (l : Launch) (st : State) (hv : l.valid = true) (h : State.launch l = .ok st) : Reachable st
  | call (c : HostCall) (st st' : State) (hr : Reachable st) (h : hostStep c st = .next st') : Reachable st'

/-- Every memory is in canonical form and within its size (10_state.md R49, R50, R55, R56). -/
structure MemoriesOk (st : State) : Prop where
  ram : Cells.wf st.ram = true ∧ Cells.within 2048 st.ram = true
  prg : Cells.wf st.prg = true ∧ Cells.within (prgSize st.cfg.prgBanks) st.prg = true
  chr : Cells.wf st.chr = true ∧ Cells.within chrSize st.chr = true
  nt : Cells.wf st.ppu.nt = true ∧ Cells.within 2048 st.ppu.nt = true
  pal : Cells.wf st.ppu.pal = true ∧ Cells.within 32 st.ppu.pal = true
  fb : Cells.wf st.ppu.fb = true ∧ Cells.within 61440 st.ppu.fb = true

/-- The PPU's counters are in range, its attribute latch has two significant bits, the sprite flags are 0,
and no NMI is pending between ticks (10_state.md R42, R45, R46; 52_system_clock.md R376). -/
structure PpuOk (p : Ppu) : Prop where
  scanline : -1 ≤ p.scanline ∧ p.scanline ≤ 260
  dot : p.dot ≤ 340
  attrib : p.bgNextTileAttrib.toNat < 4
  spriteZeroHit : p.spriteZeroHit = false
  spriteOverflow : p.spriteOverflow = false
  nmiPending : p.nmiPending = false

/-- The invariant at a tick boundary: the memories, the PPU, `P.U = 1` (10_state.md R26), and a countdown of
at most 8 (R29). -/
structure Inv (st : State) : Prop where
  memories : MemoriesOk st
  ppu : PpuOk st.ppu
  unused : st.flag .U = true
  countdown : st.cpu.countdown ≤ 8
  cfg : st.cfg.valid = true

end Sys2Proof.Machine
end

