-- ==== Sys2Proof/Certificates/Slice0/Obligations.lean ====
section
/-! DEFINITION. The statements about the machine, with the words they use. A read of an operand or of an
instruction byte may fall on a PPU port and change PPU registers (20_memory.md R103); no read changes memory.
So a frame says what memory does, and gives the PPU as the state after the operand read has it. A statement about an
instruction with an operand holds for every operand form; a form that its mnemonic does not have decodes from no
byte, and what is said of it is the model's choice (log 15). -/

namespace Sys2Proof.Machine

/-! ## Words for memory -/

/-- The byte that a bus read of `a` returns. -/
def State.peek (st : State) (a : Addr) : Byte := (st.busRead a).1

/-- An address in the window of the PPU ports (20_memory.md R75): no memory stands behind it. -/
def isPort (a : Addr) : Prop := 0x2000 ≤ a.toNat ∧ a.toNat ≤ 0x3FFF

/-- An address whose read changes PPU state: port 2 or port 7 (R103). -/
def sideEffectPort (a : Addr) : Prop := isPort a ∧ (a.toNat % 8 = 2 ∨ a.toNat % 8 = 7)

/-- Two CPU addresses that name one byte of memory: mirrors of work RAM (R74), or of program ROM (R81). -/
def sameByte (c : Config) (a b : Addr) : Prop :=
  (a.toNat < 0x2000 ∧ b.toNat < 0x2000 ∧ a.toNat % 0x800 = b.toNat % 0x800) ∨
  (0x8000 ≤ a.toNat ∧ 0x8000 ≤ b.toNat ∧
    match c.prgBanks with
    | .one => a.toNat % 0x4000 = b.toNat % 0x4000
    | .two => a = b)

/-- A write to `a` changes a byte of CPU memory: work RAM, or program ROM when `PRG_WRITABLE` (R73, R82). -/
def storable (c : Config) (a : Addr) : Prop := a.toNat < 0x2000 ∨ (0x8000 ≤ a.toNat ∧ c.prgWritable = true)

/-- Every byte of CPU memory reads as before. -/
def CpuMemoryKept (s t : State) : Prop := ∀ a, ¬ isPort a → t.peek a = s.peek a

/-- Every byte of PPU memory, and every pixel, reads as before. -/
def PpuMemoryKept (s t : State) : Prop := (∀ a, t.ppuRead a = s.ppuRead a) ∧ ∀ x y, t.pixel x y = s.pixel x y

/-- No memory and no PPU register changes. -/
def TouchesNoMemory (s t : State) : Prop := CpuMemoryKept s t ∧ PpuMemoryKept s t ∧ t.ppu = s.ppu

/-- The bus write of `v` to `a`, from `s` to `t`: every address that names the byte reads `v`, every other byte
of CPU memory is kept, and the PPU changes as the port write says, where `a` is a port, and not at all
elsewhere. -/
structure Stored (a : Addr) (v : Byte) (s t : State) : Prop where
  stored : storable s.cfg a → ∀ b, sameByte s.cfg a b → t.peek b = v
  kept : ∀ b, ¬ isPort b → ¬ (storable s.cfg a ∧ sameByte s.cfg a b) → t.peek b = s.peek b
  port : isPort a → t.ppu = (s.ppuPortWrite (portOf a) v).ppu ∧ t.chr = (s.ppuPortWrite (portOf a) v).chr
  notPort : ¬ isPort a → t.ppu = s.ppu ∧ t.chr = s.chr

/-- The bytes `bs` pushed, the first at the old stack pointer and each next one a cell below, wrapping in
page 1; every other byte of CPU memory is kept. -/
structure Pushed (bs : List Byte) (s t : State) : Prop where
  pointer : t.cpu.s = s.cpu.s - BitVec.ofNat 8 bs.length
  bytes : ∀ k b, bs[k]? = some b → t.peek (stackAddr (s.cpu.s - BitVec.ofNat 8 k)) = b
  kept : ∀ a, ¬ isPort a →
    (∀ k, k < bs.length → ¬ sameByte s.cfg (stackAddr (s.cpu.s - BitVec.ofNat 8 k)) a) → t.peek a = s.peek a

/-- Byte `k` of the stack, counted from 1 at the byte the next pull gives. -/
def State.stackByte (s : State) (k : Nat) : Byte := s.peek (stackAddr (s.cpu.s + BitVec.ofNat 8 k))

/-- The little-endian word in memory at `a`, `a + 1`, as a number. -/
def State.wordAt (s : State) (a : Addr) : Nat := (s.peek a).toNat + 256 * (s.peek (a + 1)).toNat

/-! ## Words for operands -/

/-- The operand value that `Fetch()` returns after the addressing mode. -/
def State.operandByte (s : State) (o : Operand) : Byte := (fetch o (addrMode o s).2).1

/-- The state after the addressing mode and `Fetch()`. -/
def State.afterOperand (s : State) (o : Operand) : State := (fetch o (addrMode o s).2).2

/-- The effective address that the addressing mode leaves. -/
def State.operandAddr (s : State) (o : Operand) : Addr := (addrMode o s).2.cpu.ea

/-- Nothing but the operand read touches memory: every byte is kept, and the PPU is as after the read. -/
def ReadsOnly (o : Operand) (s t : State) : Prop :=
  CpuMemoryKept s t ∧ PpuMemoryKept s t ∧ t.ppu = (s.afterOperand o).ppu

/-! ## Words for registers and flags -/

/-- The registers that a program names. -/
inductive Reg where
  | A | X | Y | S | PC
  deriving DecidableEq, Repr

/-- The value of a register, as a number. -/
def State.reg (st : State) : Reg → Nat
  | .A => st.cpu.a.toNat
  | .X => st.cpu.x.toNat
  | .Y => st.cpu.y.toNat
  | .S => st.cpu.s.toNat
  | .PC => st.cpu.pc.toNat

/-- The frame of an instruction that may write the registers `rs` and the flags `fs`: every other register and
flag is kept, but U, which every instruction sets (30_encoding.md R132); no instruction changes a launch
constant, a clock counter, or the record of the opcode. -/
structure Keeps (rs : List Reg) (fs : List Flag) (s t : State) : Prop where
  regs : ∀ r, r ∉ rs → t.reg r = s.reg r
  flags : ∀ f, f ∉ fs → f ≠ .U → t.flag f = s.flag f
  unused : t.flag .U = true
  cfg : t.cfg = s.cfg
  sysCounter : t.sysCounter = s.sysCounter
  clockCount : t.cpu.clockCount = s.cpu.clockCount
  opcode : t.cpu.opcode = s.cpu.opcode
  mode : t.cpu.mode = s.cpu.mode

/-- Z and N are those of the byte `v` (00_scope.md R12). -/
def ZnOf (v : Byte) (t : State) : Prop := t.flag .Z = decide (v.toNat = 0) ∧ t.flag .N = decide (128 ≤ v.toNat)

/-- C, Z, N are those of the comparison of `r` with `m`, unsigned (42_arithmetic_logic.md R199). -/
def CompareFlags (r m : Byte) (t : State) : Prop :=
  t.flag .C = decide (m.toNat ≤ r.toNat) ∧ t.flag .Z = decide (r = m) ∧
    t.flag .N = decide (128 ≤ (r.toNat + 256 - m.toNat) % 256)

/-- The instruction runs, and its next state has the property. -/
def Completes (i : Instr) (s : State) (q : State → Prop) : Prop := ∃ t, exec i s = .next t ∧ q t

/-! ## Words for cycles -/

/-- The operations that signal a possible extra cycle (30_encoding.md R126, R128). -/
def signals : Instr → Bool
  | .lda _ | .ldx _ | .ldy _ | .adc _ | .sbc _ | .and _ | .ora _ | .eor _ | .cmp _ => true
  | .unofficialNop b _ => signallingNopBytes.contains b
  | _ => false

/-- The instruction is a branch whose condition holds (44_branch_jump.md R231 to R238). -/
def branchTaken (s : State) : Instr → Bool
  | .bcc _ => !s.flag .C
  | .bcs _ => s.flag .C
  | .beq _ => s.flag .Z
  | .bne _ => !s.flag .Z
  | .bmi _ => s.flag .N
  | .bpl _ => !s.flag .N
  | .bvc _ => !s.flag .V
  | .bvs _ => s.flag .V
  | _ => false

/-- The cycles beyond the base count: one where both the mode and the operation signal, one for a taken
branch, and one more where the branch target lies on another page than the next instruction. -/
def extraCycles (i : Instr) (s : State) : Nat :=
  (if (addrMode i.operand s).1 = true ∧ signals i = true then 1 else 0) +
  (if branchTaken s i = true then
    let target := s.cpu.pc + (addrMode i.operand s).2.cpu.rel
    if target.toNat / 256 = s.cpu.pc.toNat / 256 then 1 else 2
  else 0)

/-! ## Words for the PPU -/

/-- The counters are in range (10_state.md R45). -/
def Ppu.inFrame (p : Ppu) : Prop := -1 ≤ p.scanline ∧ p.scanline ≤ 260 ∧ p.dot ≤ 340

/-- The number of dots since scanline -1, dot 0. -/
def Ppu.position (p : Ppu) : Nat := (p.scanline + 1).toNat * 341 + p.dot

/-- `n` steps of the machine. -/
def runSteps : Nat → State → Result
  | 0, s => .next s
  | n + 1, s =>
    match step s with
    | .next t => runSteps n t
    | .fault e => .fault e
    | .refused e => .refused e

/-- The PPU addresses `a`, `b` (14 bits count) name one byte (20_memory.md R97, R98). -/
def samePpuByte (c : Config) (a b : Addr) : Prop :=
  let p := a.toNat % 0x4000
  let q := b.toNat % 0x4000
  (p < 0x2000 ∧ p = q) ∨
  (0x2000 ≤ p ∧ p < 0x3F00 ∧ 0x2000 ≤ q ∧ q < 0x3F00 ∧ p % 0x400 = q % 0x400 ∧
    match c.mirror with
    | .vertical => p / 0x400 % 2 = q / 0x400 % 2
    | .horizontal => p / 0x800 % 2 = q / 0x800 % 2) ∨
  (0x3F00 ≤ p ∧ 0x3F00 ≤ q ∧ (p % 0x20 = q % 0x20 ∨ (p % 4 = 0 ∧ q % 4 = 0 ∧ p % 0x10 = q % 0x10)))

/-- A PPU write to `a` is stored: anywhere but in character ROM, and there when `CHR_WRITABLE` (R84, R96). -/
def ppuStorable (c : Config) (a : Addr) : Prop := 0x2000 ≤ a.toNat % 0x4000 ∨ c.chrWritable = true

end Sys2Proof.Machine

open Sys2Proof Sys2Proof.Machine

/-! ## Encoding (30_encoding.md) -/

/-- Words written out from the matrices of R124 and R127, one or more of each family, decode to the
instructions they stand for. -/
def Obligations.WordsOfTheTableDecode : Prop :=
  decode [0xA9, 0x42] = .ok (.lda (.imm 0x42), []) ∧
  decode [0x8E, 0x00, 0x00] = .ok (.stx (.abs 0x0000), []) ∧
  decode [0xBA] = .ok (.tsx, []) ∧
  decode [0x7D, 0x34, 0x12] = .ok (.adc (.abx 0x1234), []) ∧
  decode [0xC1, 0x20] = .ok (.cmp (.izx 0x20), []) ∧
  decode [0x36, 0x10] = .ok (.rol (.zpx 0x10), []) ∧
  decode [0x4A] = .ok (.lsr .imp, []) ∧
  decode [0xD0, 0xFC] = .ok (.bne 0xFC, []) ∧
  decode [0x6C, 0xFF, 0x10] = .ok (.jmp (.ind 0x10FF), []) ∧
  decode [0x40] = .ok (.rti, []) ∧
  decode [0x00, 0x5A, 0x77] = .ok (.brk, [0x77]) ∧
  decode [0x02] = .ok (.xxx 0x02 .imp, []) ∧
  decode [0x1C] = .ok (.unofficialNop 0x1C .imp, [])

/-- Decode and encode agree on every instruction, for every value of the launch constants: an instruction that
exists has bytes, one opcode byte and the operand bytes of its mode, and decoding them gives it back and
leaves what follows; an instruction that does not exist has none. -/
def Obligations.DecodingAnEncodedInstructionGivesItBack : Prop :=
  ∀ (c : Config) (i : Instr),
    (i.wellFormedIn c = true → ∃ bs, encodeIn c i = some bs ∧ bs.length = 1 + i.operand.mode.operandBytes ∧
      ∀ rest, decodeIn c (bs ++ rest) = .ok (i, rest)) ∧
    (i.wellFormedIn c = false → encodeIn c i = none)

/-- Every opcode byte decodes (R123), under any table of the unofficial bytes: to an instruction that exists,
whose opcode is that byte and whose operand bytes are those that follow. The skipped byte of BRK is not in
the instruction (the model's choice, log 6). -/
def Obligations.EveryOpcodeByteDecodes : Prop :=
  ∀ (c : Config) (op b1 b2 : Byte) (rest : List Byte), ∃ i left,
    decodeIn c (op :: b1 :: b2 :: rest) = .ok (i, left) ∧
    i.wellFormedIn c = true ∧ opcodeIn c i = some op ∧
    left = (b1 :: b2 :: rest).drop i.operand.mode.operandBytes ∧
    (i.operand ≠ .pad → i.operand.bytes = (b1 :: b2 :: rest).take i.operand.mode.operandBytes)

/-! ## The instruction step (30_encoding.md R132, R133) -/

/-- No instruction faults, stops or stalls (R133, 60_exceptions.md R400): each has a next state, in every
state and with every operand; U is 1 there; launch constants and clock counters are kept. -/
def Obligations.EveryInstructionHasANextState : Prop :=
  ∀ (i : Instr) (s : State), Completes i s fun t =>
    t.flag .U = true ∧ t.cfg = s.cfg ∧ t.sysCounter = s.sysCounter ∧ t.cpu.clockCount = s.cpu.clockCount ∧
    t.cpu.opcode = s.cpu.opcode ∧ t.cpu.mode = s.cpu.mode

/-- The cycle count of every table entry: the entry's base count and the extra cycles (R132,
70_reset_and_hazards.md R452). The base counts (D3) and the list of signalling operations (R126, D46) are
decisions of the spec. -/
def Obligations.CountdownIsBaseCountPlusExtraCycles : Prop :=
  ∀ (op b1 b2 : Byte) (s : State),
    let d := descriptor s.cfg op
    Completes (d.build b1 b2) s fun t => t.cpu.countdown = d.base + extraCycles (d.build b1 b2) s

/-! ## Addressing modes (40_addressing_modes.md) -/

/-- An addressing mode writes `ea`, `rel` or `fetched` and nothing else of the CPU; it changes no memory; only
IND can change the PPU, by reading a pointer through a port (R162, an inference of the spec). That it leaves `PC`
alone and reads no operand byte is this model's reading (log 7): in R150 to R161 the mode reads its operand bytes
and moves `PC` past them, and in the model that has happened before the mode runs. -/
def Obligations.AddressingModesWriteOnlyTheirResult : Prop :=
  ∀ (o : Operand) (s : State),
    let u := (addrMode o s).2
    u.cpu = { s.cpu with ea := u.cpu.ea, rel := u.cpu.rel, fetched := u.cpu.fetched } ∧
    u.cfg = s.cfg ∧ u.ram = s.ram ∧ u.prg = s.prg ∧ u.chr = s.chr ∧ u.sysCounter = s.sysCounter ∧
    u.ppu.nt = s.ppu.nt ∧ u.ppu.pal = s.ppu.pal ∧ u.ppu.fb = s.ppu.fb ∧
    ((∀ p, o ≠ .ind p) → u.ppu = s.ppu)

/-- The address of the modes without a pointer. Zero page (R152 to R154): the address and its index wrap inside
page 0, without a signal. Absolute (R156 to R158): the indexed sum wraps at 16 bits (D8), and the signal says
that the low byte and the index carry into another page. -/
def Obligations.IndexedAddressesWrapAndSignal : Prop :=
  ∀ (b : Byte) (w : Addr) (s : State),
    ((s.operandAddr (.zp0 b)).toNat = b.toNat ∧ (addrMode (.zp0 b) s).1 = false) ∧
    ((s.operandAddr (.zpx b)).toNat = (b.toNat + s.cpu.x.toNat) % 256 ∧ (addrMode (.zpx b) s).1 = false) ∧
    ((s.operandAddr (.zpy b)).toNat = (b.toNat + s.cpu.y.toNat) % 256 ∧ (addrMode (.zpy b) s).1 = false) ∧
    (s.operandAddr (.abs w) = w ∧ (addrMode (.abs w) s).1 = false) ∧
    ((s.operandAddr (.abx w)).toNat = (w.toNat + s.cpu.x.toNat) % 65536 ∧
      (addrMode (.abx w) s).1 = decide (255 < w.toNat % 256 + s.cpu.x.toNat)) ∧
    ((s.operandAddr (.aby w)).toNat = (w.toNat + s.cpu.y.toNat) % 65536 ∧
      (addrMode (.aby w) s).1 = decide (255 < w.toNat % 256 + s.cpu.y.toNat))

/-- The zero-page pointer modes (R160, R161): each pointer byte comes from page 0, with its own wrap; IZY adds Y
in 16 bits and signals the page cross. -/
def Obligations.ZeroPagePointersWrapInPageZero : Prop :=
  ∀ (b : Byte) (s : State),
    let pointer (k : Byte) : Nat := (s.peek (zeroPage k)).toNat + 256 * (s.peek (zeroPage (k + 1))).toNat
    ((s.operandAddr (.izx b)).toNat = pointer (b + s.cpu.x) ∧ (addrMode (.izx b) s).1 = false) ∧
    ((s.operandAddr (.izy b)).toNat = (pointer b + s.cpu.y.toNat) % 65536 ∧
      (addrMode (.izy b) s).1 = decide (255 < pointer b % 256 + s.cpu.y.toNat))

/-- `Fetch()` (R163): A in mode IMP, one bus read at the effective address in the modes with an address in memory.
REL gives the sign-extended offset (R155). The clause on mode IMM is this model's reading (log 7): R163 makes
`Fetch()` one bus read at `ea` there too, and the model has made that read with the instruction, so that `Fetch()`
returns the byte held there, leaves the PPU, and `ea` is the address before a `PC` that is already past the byte. -/
def Obligations.FetchIsOneBusReadAtTheEffectiveAddress : Prop :=
  ∀ (o : Operand) (s : State),
    (o = .imp → s.operandByte o = s.cpu.a ∧ (s.afterOperand o).ppu = s.ppu) ∧
    (∀ b, o = .imm b → s.operandByte o = b ∧ (s.afterOperand o).ppu = s.ppu ∧
      s.operandAddr o = s.cpu.pc - 1) ∧
    (∀ b, o = .rel b → ((addrMode o s).2.cpu.rel.toInt = b.toInt ∧ (addrMode o s).1 = false)) ∧
    (o ≠ .imp → (∀ b, o ≠ .imm b) → (∀ p, o ≠ .ind p) →
      s.operandByte o = s.peek (s.operandAddr o) ∧
      (s.afterOperand o).ppu = (s.busRead (s.operandAddr o)).2.ppu)

/-! ## The CPU bus (20_memory.md) -/

/-- Work RAM (R74): the four mirrors of a byte are one byte, a read has no side effect, and outside RAM and the
ports nothing is writable with the default `PRG_WRITABLE`. -/
def Obligations.RamIsMirroredEveryTwoKilobytes : Prop :=
  ∀ (s : State) (a : Addr) (d : Byte),
    (a.toNat < 0x2000 → (s.busRead a).2 = s) ∧
    (a.toNat < 0x2000 → ∀ b : Addr, b.toNat < 0x2000 →
      (s.busWrite a d).peek b = if a.toNat % 0x800 = b.toNat % 0x800 then d else s.peek b) ∧
    (0x2000 ≤ a.toNat → ¬ isPort a → s.cfg.prgWritable = false → s.busWrite a d = s)

/-- Program ROM through mapper 0 (R81, R82), and the unmapped window (R76): what is read, and what a write
does. The masks and the window's behaviour are decisions of the spec (D13, D14, D15). -/
def Obligations.ProgramRomAndUnmappedWindow : Prop :=
  ∀ (s : State) (a : Addr) (d : Byte),
    (0x8000 ≤ a.toNat → s.peek a = Cells.read s.prg (a.toNat % (if s.cfg.prgBanks = .one then 0x4000 else 0x8000))) ∧
    (0x8000 ≤ a.toNat → s.cfg.prgWritable = false → s.busWrite a d = s) ∧
    (0x8000 ≤ a.toNat → s.cfg.prgWritable = true → ∀ b : Addr, ¬ isPort b →
      ((sameByte s.cfg a b → (s.busWrite a d).peek b = d) ∧
       (¬ sameByte s.cfg a b → (s.busWrite a d).peek b = s.peek b))) ∧
    (0x4000 ≤ a.toNat → a.toNat < 0x8000 → s.peek a = 0x00 ∧ s.busWrite a d = s)

/-- Reads change state at ports 2 and 7 only (R103), and there as the port says (50_ppu_ports.md R305, R313). -/
def Obligations.OnlyTwoPortsHaveReadSideEffects : Prop :=
  ∀ (s : State) (a : Addr),
    (¬ sideEffectPort a → (s.busRead a).2 = s) ∧
    (isPort a → a.toNat % 8 = 2 →
      (s.busRead a).2 = s.setPpu { s.ppu with verticalBlank := false, w := false }) ∧
    (isPort a → a.toNat % 8 = 7 →
      (s.busRead a).2 = s.setPpu { s.ppu with dataBuf := s.ppuRead s.ppu.vAddr, v := s.ppu.nextV })

/-- A bus write is a store to one byte of memory, or a port write, and changes no CPU register (R73). -/
def Obligations.ABusWriteStoresOneByte : Prop :=
  ∀ (s : State) (a : Addr) (d : Byte),
    Stored a d s (s.busWrite a d) ∧ (s.busWrite a d).cpu = s.cpu ∧ (s.busWrite a d).cfg = s.cfg ∧
    (s.busWrite a d).sysCounter = s.sysCounter ∧
    (isPort a → CpuMemoryKept s (s.busWrite a d)) ∧
    ((a.toNat % 8 ≠ 7 ∨ ¬ isPort a) → PpuMemoryKept s (s.busWrite a d))

/-! ## PPU memory (20_memory.md R95 to R99) -/

/-- A PPU read after a PPU write, with the nametable mirroring and the folded palette entries (R96 to R98), and
that the write changes nothing else. Which quadrants share a table and which palette entries are folded is
doc00's; the masks are decisions of the spec (R97, D16, D33). -/
def Obligations.PpuReadAfterPpuWrite : Prop :=
  ∀ (s : State) (a b : Addr) (d : Byte),
    let t := s.ppuWrite a d
    (ppuStorable s.cfg a → samePpuByte s.cfg a b → t.ppuRead b = d) ∧
    (¬ (ppuStorable s.cfg a ∧ samePpuByte s.cfg a b) → t.ppuRead b = s.ppuRead b) ∧
    t = { s with chr := t.chr, ppu := { s.ppu with nt := t.ppu.nt, pal := t.ppu.pal } }

/-! ## PPU ports (50_ppu_ports.md) -/

/-- The ports without side effects on read or without a function (R302 to R304, R306, R307, R310). A control or a
mask write stores the byte whole, and it reads back; the control write copies two bits to `t` when
`CTRL_WRITE_COPIES_NT` (D24). Ports 3 to 6 read zero and ports 2 to 4 ignore writes (D25). -/
def Obligations.PlainPortsReadAndWriteThrough : Prop :=
  ∀ (s : State) (port : BitVec 3) (d : Byte),
    let c := s.ppuPortWrite 0 d
    let m := s.ppuPortWrite 1 d
    c = s.setPpu { s.ppu with ctrl := d, t := c.ppu.t } ∧ (c.ppuPortRead 0) = (d, c) ∧
    (s.cfg.ctrlWriteCopiesNt = false → c.ppu.t = s.ppu.t) ∧
    (s.cfg.ctrlWriteCopiesNt = true →
      c.ppu.t.toNat = s.ppu.t.toNat / 4096 * 4096 + d.toNat % 4 * 1024 + s.ppu.t.toNat % 1024) ∧
    m = s.setPpu { s.ppu with mask := d } ∧ (m.ppuPortRead 1) = (d, m) ∧
    (3 ≤ port.toNat → port.toNat ≤ 6 → s.ppuPortRead port = (0x00, s)) ∧
    (2 ≤ port.toNat → port.toNat ≤ 4 → s.ppuPortWrite port d = s)

/-- Status read (R305): the three flags on top, the low five bits of the read buffer below; the vertical-blank
flag and the latch are cleared after. That the residue is the read buffer is a decision of the spec (D28). -/
def Obligations.StatusReadReturnsFlagsAndClears : Prop :=
  ∀ s : State,
    let r := s.ppuPortRead 2
    r.1.toNat = (if s.ppu.verticalBlank then 128 else 0) + (if s.ppu.spriteZeroHit then 64 else 0) +
      (if s.ppu.spriteOverflow then 32 else 0) + s.ppu.dataBuf.toNat % 32 ∧
    r.2 = s.setPpu { s.ppu with verticalBlank := false, w := false }

/-- The two-step writes. From the latch at 0, two scroll writes (R308): the first gives the horizontal parts, the
second the vertical ones; the nametable bits and `v` are kept (layout of the bytes: decision D26). From the latch
at 0, two address writes (R309): they compose an address and put it in `v` (mask of the first byte: decision D27).
From the latch at 1, whatever write set it and whatever `t` holds, bit 14 among it: a scroll write replaces the
vertical parts of `t`, and an address write its low byte, and copies it to `v`. -/
def Obligations.TwoStepWritesSetScrollAndAddress : Prop :=
  ∀ (s : State) (d1 d2 : Byte),
    (s.ppu.w = false →
      let s1 := s.ppuPortWrite 5 d1
      let s2 := s1.ppuPortWrite 5 d2
      let a1 := s.ppuPortWrite 6 d1
      let a2 := a1.ppuPortWrite 6 d2
      (s1 = s.setPpu { s.ppu with fineX := s1.ppu.fineX, t := s1.ppu.t, w := true } ∧
        s1.ppu.t.toNat = s.ppu.t.toNat / 32 * 32 + d1.toNat / 8 ∧ s1.ppu.fineX.toNat = d1.toNat % 8) ∧
      (s2 = s.setPpu { s.ppu with fineX := s1.ppu.fineX, t := s2.ppu.t, w := false } ∧
        s2.ppu.t.toNat =
          d2.toNat % 8 * 4096 + s.ppu.t.toNat / 1024 % 4 * 1024 + d2.toNat / 8 * 32 + d1.toNat / 8) ∧
      (a1 = s.setPpu { s.ppu with t := a1.ppu.t, w := true } ∧
        a1.ppu.t.toNat = d1.toNat % 64 * 256 + s.ppu.t.toNat % 256) ∧
      (a2 = s.setPpu { s.ppu with t := a2.ppu.t, v := a2.ppu.t, w := false } ∧
        a2.ppu.t.toNat = d1.toNat % 64 * 256 + d2.toNat)) ∧
    (s.ppu.w = true →
      let s2 := s.ppuPortWrite 5 d2
      let a2 := s.ppuPortWrite 6 d2
      (s2 = s.setPpu { s.ppu with t := s2.ppu.t, w := false } ∧
        s2.ppu.t.toNat =
          d2.toNat % 8 * 4096 + s.ppu.t.toNat / 1024 % 4 * 1024 + d2.toNat / 8 * 32 + s.ppu.t.toNat % 32) ∧
      (a2 = s.setPpu { s.ppu with t := a2.ppu.t, v := a2.ppu.t, w := false } ∧
        a2.ppu.t.toNat = s.ppu.t.toNat / 256 * 256 + d2.toNat))

/-- The write latch (R311): the scroll and address ports share it, a status read clears it, every other port
access keeps it, and so does a CPU reset. -/
def Obligations.ScrollAndAddressShareTheLatch : Prop :=
  ∀ (s : State) (port : BitVec 3) (d1 d2 : Byte),
    (s.ppu.w = false →
      let s2 := (s.ppuPortWrite 5 d1).ppuPortWrite 6 d2
      s2.ppu.w = false ∧ s2.ppu.v = s2.ppu.t) ∧
    (s.ppu.w = false →
      let s2 := (s.ppuPortWrite 6 d1).ppuPortWrite 5 d2
      s2.ppu.w = false ∧ s2.ppu.fineX = s.ppu.fineX ∧ coarseX s2.ppu.t = coarseX s.ppu.t) ∧
    ((s.ppuPortRead 2).2.ppu.w = false) ∧
    (port ≠ 2 → (s.ppuPortRead port).2.ppu.w = s.ppu.w) ∧
    (port ≠ 5 → port ≠ 6 → (s.ppuPortWrite port d1).ppu.w = s.ppu.w) ∧
    (s.cpuReset.ppu.w = s.ppu.w)

/-- The data port (R313, R314): a read returns the buffer, or the byte itself on a palette address, and refills
the buffer; a write stores at once and keeps the buffer; both add 1 or 32 to `v`, modulo 0x8000 (D44). -/
def Obligations.TheDataPortReadsBufferedAndIncrements : Prop :=
  ∀ (s : State) (d : Byte),
    let next : Nat := (s.ppu.v.toNat + if s.ppu.ctrl.getLsbD 2 then 32 else 1) % 0x8000
    let r := s.ppuPortRead 7
    let t := s.ppuPortWrite 7 d
    (r.1 = if s.ppu.v.toNat % 0x4000 ≥ 0x3F00 then s.ppuRead s.ppu.vAddr else s.ppu.dataBuf) ∧
    r.2 = s.setPpu { s.ppu with dataBuf := s.ppuRead s.ppu.vAddr, v := r.2.ppu.v } ∧
    r.2.ppu.v.toNat = next ∧ t.ppu.v.toNat = next ∧ t.ppu.dataBuf = s.ppu.dataBuf ∧
    (∀ a, ppuStorable s.cfg s.ppu.vAddr → samePpuByte s.cfg s.ppu.vAddr a → t.ppuRead a = d) ∧
    (∀ a, ¬ (ppuStorable s.cfg s.ppu.vAddr ∧ samePpuByte s.cfg s.ppu.vAddr a) → t.ppuRead a = s.ppuRead a) ∧
    t.cpu = s.cpu ∧ t.ram = s.ram ∧ t.prg = s.prg

/-! ## The stack (10_state.md R21, R23) -/

/-- The stack (R21): it lies in page 1, a push or a pull wraps the pointer inside 0..255, and a pull after a push
gives the byte back. That a push writes before it decrements is a decision of the spec (R23, D11). -/
def Obligations.TheStackWrapsInPageOne : Prop :=
  ∀ (s : State) (v : Byte),
    (stackAddr s.cpu.s).toNat = 0x100 + s.cpu.s.toNat ∧
    (s.push v).cpu.s.toNat = (s.cpu.s.toNat + 255) % 256 ∧ s.pull.2.cpu.s.toNat = (s.cpu.s.toNat + 1) % 256 ∧
    Pushed [v] s (s.push v) ∧ s.pull.1 = s.stackByte 1 ∧
    (s.push v).pull.1 = v ∧ (s.push v).pull.2.cpu = s.cpu

/-- PHA, PHP, PLA, PLP (45_stack_flags_system.md R250 to R253): PHP pushes the status with B and U set and clears
the live B; PLP takes every flag from the pulled byte, U forced to 1. -/
def Obligations.PushAndPullInstructions : Prop :=
  ∀ s : State,
    (Completes .pha s fun t => Pushed [s.cpu.a] s t ∧ Keeps [.S] [] s t ∧ PpuMemoryKept s t ∧ t.ppu = s.ppu) ∧
    (Completes .php s fun t => (∃ p : Byte, Pushed [p] s t ∧
        ∀ f, flagOf f p = if f = .B ∨ f = .U then true else s.flag f) ∧
      t.flag .B = false ∧ Keeps [.S] [.B] s t ∧ PpuMemoryKept s t ∧ t.ppu = s.ppu) ∧
    (Completes .pla s fun t => t.cpu.a = s.stackByte 1 ∧ ZnOf (s.stackByte 1) t ∧ t.cpu.s = s.cpu.s + 1 ∧
      Keeps [.A, .S] [.Z, .N] s t ∧ TouchesNoMemory s t) ∧
    (Completes .plp s fun t => (∀ f, t.flag f = if f = .U then true else flagOf f (s.stackByte 1)) ∧
      t.cpu.s = s.cpu.s + 1 ∧ Keeps [.S] [.C, .Z, .I, .D, .B, .V, .N] s t ∧ TouchesNoMemory s t)

/-! ## Load, store, transfer (41_load_store_transfer.md) -/

/-- LDA, LDX, LDY (R170 to R172): the register takes the operand, Z and N are the operand's, and nothing else
changes but by the operand read. -/
def Obligations.LoadsCopyTheOperand : Prop :=
  ∀ (o : Operand) (s : State),
    (Completes (.lda o) s fun t => t.cpu.a = s.operandByte o ∧ ZnOf (s.operandByte o) t ∧
      Keeps [.A] [.Z, .N] s t ∧ ReadsOnly o s t) ∧
    (Completes (.ldx o) s fun t => t.cpu.x = s.operandByte o ∧ ZnOf (s.operandByte o) t ∧
      Keeps [.X] [.Z, .N] s t ∧ ReadsOnly o s t) ∧
    (Completes (.ldy o) s fun t => t.cpu.y = s.operandByte o ∧ ZnOf (s.operandByte o) t ∧
      Keeps [.Y] [.Z, .N] s t ∧ ReadsOnly o s t)

/-- STA, STX, STY (R173 to R175): one bus write at the effective address, no flag. The state before the write is
the one that the addressing mode leaves, which has read the zero-page pointer, if any. -/
def Obligations.StoresWriteOneByte : Prop :=
  ∀ (o : Operand) (s : State),
    CpuMemoryKept s (addrMode o s).2 ∧ PpuMemoryKept s (addrMode o s).2 ∧
    (Completes (.sta o) s fun t => Stored (s.operandAddr o) s.cpu.a (addrMode o s).2 t ∧ Keeps [] [] s t) ∧
    (Completes (.stx o) s fun t => Stored (s.operandAddr o) s.cpu.x (addrMode o s).2 t ∧ Keeps [] [] s t) ∧
    (Completes (.sty o) s fun t => Stored (s.operandAddr o) s.cpu.y (addrMode o s).2 t ∧ Keeps [] [] s t)

/-- The six transfers (R176 to R181): the register takes the other's value, Z and N are that value's; TXS changes
no flag. -/
def Obligations.TransfersCopyARegister : Prop :=
  ∀ s : State,
    (Completes .tax s fun t => t.cpu.x = s.cpu.a ∧ ZnOf s.cpu.a t ∧ Keeps [.X] [.Z, .N] s t ∧ TouchesNoMemory s t) ∧
    (Completes .tay s fun t => t.cpu.y = s.cpu.a ∧ ZnOf s.cpu.a t ∧ Keeps [.Y] [.Z, .N] s t ∧ TouchesNoMemory s t) ∧
    (Completes .txa s fun t => t.cpu.a = s.cpu.x ∧ ZnOf s.cpu.x t ∧ Keeps [.A] [.Z, .N] s t ∧ TouchesNoMemory s t) ∧
    (Completes .tya s fun t => t.cpu.a = s.cpu.y ∧ ZnOf s.cpu.y t ∧ Keeps [.A] [.Z, .N] s t ∧ TouchesNoMemory s t) ∧
    (Completes .tsx s fun t => t.cpu.x = s.cpu.s ∧ ZnOf s.cpu.s t ∧ Keeps [.X] [.Z, .N] s t ∧ TouchesNoMemory s t) ∧
    (Completes .txs s fun t => t.cpu.s = s.cpu.x ∧ Keeps [.S] [] s t ∧ TouchesNoMemory s t)

/-! ## Arithmetic and logic (42_arithmetic_logic.md) -/

/-- ADC (R193): the sum modulo 256; C is the ninth bit, V says that the signed sum leaves -128..127. SBC (R194):
the difference with the complement of C as borrow; C says that there is no borrow, V that the signed
difference leaves -128..127. -/
def Obligations.AddAndSubtractUnsignedAndSigned : Prop :=
  ∀ (o : Operand) (s : State),
    let m := s.operandByte o
    let carry : Nat := if s.flag .C then 1 else 0
    let sum : Int := s.cpu.a.toInt + m.toInt + carry
    let difference : Int := s.cpu.a.toInt - m.toInt - (1 - carry)
    (Completes (.adc o) s fun t =>
      t.cpu.a.toNat = (s.cpu.a.toNat + m.toNat + carry) % 256 ∧
      t.flag .C = decide (255 < s.cpu.a.toNat + m.toNat + carry) ∧
      t.flag .V = decide (sum < -128 ∨ 127 < sum) ∧
      ZnOf t.cpu.a t ∧ Keeps [.A] [.C, .Z, .V, .N] s t ∧ ReadsOnly o s t) ∧
    (Completes (.sbc o) s fun t =>
      (t.cpu.a.toNat : Int) = ((s.cpu.a.toNat : Int) - m.toNat - (1 - carry)) % 256 ∧
      t.flag .C = decide (m.toNat + 1 ≤ s.cpu.a.toNat + carry) ∧
      t.flag .V = decide (difference < -128 ∨ 127 < difference) ∧
      ZnOf t.cpu.a t ∧ Keeps [.A] [.C, .Z, .V, .N] s t ∧ ReadsOnly o s t)

/-- The overflow rule (R191), for ADC on the operand and for SBC on its complement: V is set exactly when the
accumulator and the operand have one sign bit and the result the other. -/
def Obligations.OverflowIsTheSignRule : Prop :=
  ∀ (o : Operand) (s : State),
    (Completes (.adc o) s fun t =>
      t.flag .V = decide (s.cpu.a.msb = (s.operandByte o).msb ∧ t.cpu.a.msb ≠ s.cpu.a.msb)) ∧
    (Completes (.sbc o) s fun t =>
      t.flag .V = decide (s.cpu.a.msb = (s.operandByte o ^^^ 0xFF#8).msb ∧ t.cpu.a.msb ≠ s.cpu.a.msb))

/-- Decimal mode (R192, decision D4): ADC and SBC do the same whatever D holds, and keep D. -/
def Obligations.TheDecimalFlagChangesNoArithmetic : Prop :=
  ∀ (o : Operand) (s : State) (d : Bool),
    (Completes (.adc o) s fun t => exec (.adc o) (s.setFlag .D d) = .next (t.setFlag .D d)) ∧
    (Completes (.sbc o) s fun t => exec (.sbc o) (s.setFlag .D d) = .next (t.setFlag .D d))

/-- AND, ORA, EOR (R195 to R197), bit by bit, and BIT (R198), which stores nothing: Z says that no bit is set in
both, N and V are bits 7 and 6 of the operand. -/
def Obligations.LogicalInstructions : Prop :=
  ∀ (o : Operand) (s : State),
    let m := s.operandByte o
    (Completes (.and o) s fun t => (∀ k, t.cpu.a.getLsbD k = (s.cpu.a.getLsbD k && m.getLsbD k)) ∧
      ZnOf t.cpu.a t ∧ Keeps [.A] [.Z, .N] s t ∧ ReadsOnly o s t) ∧
    (Completes (.ora o) s fun t => (∀ k, t.cpu.a.getLsbD k = (s.cpu.a.getLsbD k || m.getLsbD k)) ∧
      ZnOf t.cpu.a t ∧ Keeps [.A] [.Z, .N] s t ∧ ReadsOnly o s t) ∧
    (Completes (.eor o) s fun t => (∀ k, t.cpu.a.getLsbD k = (s.cpu.a.getLsbD k ^^ m.getLsbD k)) ∧
      ZnOf t.cpu.a t ∧ Keeps [.A] [.Z, .N] s t ∧ ReadsOnly o s t) ∧
    (Completes (.bit o) s fun t =>
      (t.flag .Z = true ↔ ∀ k, k < 8 → ¬ (s.cpu.a.getLsbD k = true ∧ m.getLsbD k = true)) ∧
      t.flag .N = m.getLsbD 7 ∧ t.flag .V = m.getLsbD 6 ∧ Keeps [] [.Z, .N, .V] s t ∧ ReadsOnly o s t)

/-- CMP, CPX, CPY (R199 to R201): flags of the comparison, nothing stored. -/
def Obligations.ComparesSetFlagsOnly : Prop :=
  ∀ (o : Operand) (s : State),
    let m := s.operandByte o
    (Completes (.cmp o) s fun t => CompareFlags s.cpu.a m t ∧ Keeps [] [.C, .Z, .N] s t ∧ ReadsOnly o s t) ∧
    (Completes (.cpx o) s fun t => CompareFlags s.cpu.x m t ∧ Keeps [] [.C, .Z, .N] s t ∧ ReadsOnly o s t) ∧
    (Completes (.cpy o) s fun t => CompareFlags s.cpu.y m t ∧ Keeps [] [.C, .Z, .N] s t ∧ ReadsOnly o s t)

/-- INC and DEC (R202, R203): one read and one write of the effective address, the flags of the written byte. -/
def Obligations.IncAndDecWriteBack : Prop :=
  ∀ (o : Operand) (s : State),
    let m := s.operandByte o
    let up : Byte := BitVec.ofNat 8 (m.toNat + 1)
    let down : Byte := BitVec.ofNat 8 (m.toNat + 255)
    CpuMemoryKept s (s.afterOperand o) ∧ PpuMemoryKept s (s.afterOperand o) ∧
    (Completes (.inc o) s fun t => Stored (s.operandAddr o) up (s.afterOperand o) t ∧ ZnOf up t ∧
      Keeps [] [.Z, .N] s t) ∧
    (Completes (.dec o) s fun t => Stored (s.operandAddr o) down (s.afterOperand o) t ∧ ZnOf down t ∧
      Keeps [] [.Z, .N] s t)

/-- INX, INY, DEX, DEY (R204 to R207): the register plus or minus 1 modulo 256, Z and N of the result. -/
def Obligations.IndexRegistersCountAndWrap : Prop :=
  ∀ s : State,
    (Completes .inx s fun t => t.cpu.x.toNat = (s.cpu.x.toNat + 1) % 256 ∧ ZnOf t.cpu.x t ∧
      Keeps [.X] [.Z, .N] s t ∧ TouchesNoMemory s t) ∧
    (Completes .iny s fun t => t.cpu.y.toNat = (s.cpu.y.toNat + 1) % 256 ∧ ZnOf t.cpu.y t ∧
      Keeps [.Y] [.Z, .N] s t ∧ TouchesNoMemory s t) ∧
    (Completes .dex s fun t => t.cpu.x.toNat = (s.cpu.x.toNat + 255) % 256 ∧ ZnOf t.cpu.x t ∧
      Keeps [.X] [.Z, .N] s t ∧ TouchesNoMemory s t) ∧
    (Completes .dey s fun t => t.cpu.y.toNat = (s.cpu.y.toNat + 255) % 256 ∧ ZnOf t.cpu.y t ∧
      Keeps [.Y] [.Z, .N] s t ∧ TouchesNoMemory s t)

/-! ## Shift and rotate (43_shift_rotate.md) -/

namespace Sys2Proof.Machine

/-- The end of a shift: C is the bit shifted out, Z and N are of the result, and the result `r` is in A for the
accumulator form, or written to the effective address after the operand read (R220, R164). -/
def Shifted (o : Operand) (r : Nat) (out : Bool) (s t : State) : Prop :=
  t.flag .C = out ∧ ZnOf (BitVec.ofNat 8 r) t ∧
  (o = .imp → t.cpu.a = BitVec.ofNat 8 r ∧ Keeps [.A] [.C, .Z, .N] s t ∧ TouchesNoMemory s t) ∧
  (o ≠ .imp → CpuMemoryKept s (s.afterOperand o) ∧ PpuMemoryKept s (s.afterOperand o) ∧
    Stored (s.operandAddr o) (BitVec.ofNat 8 r) (s.afterOperand o) t ∧ Keeps [] [.C, .Z, .N] s t)

end Sys2Proof.Machine

/-- ASL, LSR (R221, R222), and ROL, ROR (R223, R224), nine-bit rotations through C. -/
def Obligations.ShiftsAndRotatesMoveOneBit : Prop :=
  ∀ (o : Operand) (s : State),
    let m := (s.operandByte o).toNat
    let c : Nat := if s.flag .C then 1 else 0
    (Completes (.asl o) s fun t => Shifted o (2 * m % 256) (decide (128 ≤ m)) s t) ∧
    (Completes (.lsr o) s fun t => Shifted o (m / 2) (decide (m % 2 = 1)) s t) ∧
    (Completes (.rol o) s fun t => Shifted o ((2 * m + c) % 256) (decide (128 ≤ m)) s t) ∧
    (Completes (.ror o) s fun t => Shifted o (128 * c + m / 2) (decide (m % 2 = 1)) s t)

/-! ## Branch and jump (44_branch_jump.md) -/

namespace Sys2Proof.Machine

/-- A branch on `cond` (R230): where it goes, what it costs, and that it changes nothing else. -/
def Branches (i : Instr) (off : Byte) (cond : Bool) (s : State) : Prop :=
  Completes i s fun t =>
    (cond = false → t.cpu.pc = s.cpu.pc ∧ t.cpu.countdown = 2) ∧
    (cond = true → (t.cpu.pc.toNat : Int) = ((s.cpu.pc.toNat : Int) + off.toInt) % 65536 ∧
      (t.cpu.pc.toNat / 256 = s.cpu.pc.toNat / 256 → t.cpu.countdown = 3) ∧
      (t.cpu.pc.toNat / 256 ≠ s.cpu.pc.toNat / 256 → t.cpu.countdown = 4)) ∧
    Keeps [.PC] [] s t ∧ TouchesNoMemory s t

end Sys2Proof.Machine

/-- The eight branches (R230 to R238): each goes where the flag it names says, with its cycles and its frame. -/
def Obligations.BranchesGoWhereTheirFlagSays : Prop :=
  ∀ (off : Byte) (s : State),
    Branches (.bcc off) off (!s.flag .C) s ∧ Branches (.bcs off) off (s.flag .C) s ∧
    Branches (.bne off) off (!s.flag .Z) s ∧ Branches (.beq off) off (s.flag .Z) s ∧
    Branches (.bpl off) off (!s.flag .N) s ∧ Branches (.bmi off) off (s.flag .N) s ∧
    Branches (.bvc off) off (!s.flag .V) s ∧ Branches (.bvs off) off (s.flag .V) s

/-- JMP (R239): the absolute form, and the indirect form, whose high byte comes from the start of the same page
when the pointer's low byte is 0xFF (40_addressing_modes.md R159). The two pointer bytes are read through the
bus in this order, the low byte first (general knowledge, R159). -/
def Obligations.JumpsIncludingThePageWrap : Prop :=
  ∀ (w : Addr) (s : State),
    (Completes (.jmp (.abs w)) s fun t => t.cpu.pc = w ∧ Keeps [.PC] [] s t ∧ TouchesNoMemory s t) ∧
    (let hiAddr : Addr := if w.toNat % 256 = 255 then w - 255#16 else w + 1
     let lo := s.busRead w
     let hi := lo.2.busRead hiAddr
     Completes (.jmp (.ind w)) s fun t => t.cpu.pc.toNat = lo.1.toNat + 256 * hi.1.toNat ∧
       t.cpu.countdown = 5 ∧ Keeps [.PC] [] s t ∧ CpuMemoryKept s t ∧ PpuMemoryKept s t ∧ t.ppu = hi.2.ppu)

/-- JSR and RTS (R240, R241), and a subroutine that returns at once: RTS after JSR comes back to the instruction
after the JSR, with the stack pointer as it was. -/
def Obligations.CallAndReturn : Prop :=
  ∀ (w : Addr) (s : State),
    (Completes (.jsr w) s fun t => t.cpu.pc = w ∧
      Pushed [highByte (s.cpu.pc - 1), lowByte (s.cpu.pc - 1)] s t ∧ Keeps [.S, .PC] [] s t ∧
      PpuMemoryKept s t ∧ t.ppu = s.ppu) ∧
    (Completes .rts s fun t =>
      t.cpu.pc.toNat = ((s.stackByte 1).toNat + 256 * (s.stackByte 2).toNat + 1) % 65536 ∧
      t.cpu.s = s.cpu.s + 2 ∧ Keeps [.S, .PC] [] s t ∧ TouchesNoMemory s t) ∧
    (Completes (.jsr w) s fun t => Completes .rts t fun u =>
      u.cpu.pc = s.cpu.pc ∧ u.cpu.s = s.cpu.s ∧ Keeps [] [] s u)

/-! ## Flags, NOP, placeholders (45_stack_flags_system.md) -/

/-- The seven flag instructions (R254 to R260): each writes one flag. -/
def Obligations.FlagInstructionsWriteOneFlag : Prop :=
  ∀ s : State,
    (Completes .clc s fun t => t.flag .C = false ∧ Keeps [] [.C] s t ∧ TouchesNoMemory s t) ∧
    (Completes .sec s fun t => t.flag .C = true ∧ Keeps [] [.C] s t ∧ TouchesNoMemory s t) ∧
    (Completes .cli s fun t => t.flag .I = false ∧ Keeps [] [.I] s t ∧ TouchesNoMemory s t) ∧
    (Completes .sei s fun t => t.flag .I = true ∧ Keeps [] [.I] s t ∧ TouchesNoMemory s t) ∧
    (Completes .cld s fun t => t.flag .D = false ∧ Keeps [] [.D] s t ∧ TouchesNoMemory s t) ∧
    (Completes .sed s fun t => t.flag .D = true ∧ Keeps [] [.D] s t ∧ TouchesNoMemory s t) ∧
    (Completes .clv s fun t => t.flag .V = false ∧ Keeps [] [.V] s t ∧ TouchesNoMemory s t)

/-- NOP and the placeholder instructions (R261, R264): no register, flag or memory byte changes. A placeholder
takes the base cycles of its slot, and one more only if it is one of the six signalling bytes and its mode
crosses a page (30_encoding.md R128). In mode IND, which the spec's table never uses, the mode itself reads
its pointer. -/
def Obligations.NopAndPlaceholdersChangeNothing : Prop :=
  ∀ (b : Byte) (o : Operand) (s : State),
    (Completes .nop s fun t => t.cpu.countdown = 2 ∧ Keeps [] [] s t ∧ TouchesNoMemory s t) ∧
    (Completes (.xxx b o) s fun t => t.cpu.countdown = (s.cfg.unofficialEntry b).base ∧
      Keeps [] [] s t ∧ CpuMemoryKept s t ∧ PpuMemoryKept s t ∧ ((∀ p, o ≠ .ind p) → t.ppu = s.ppu)) ∧
    (Completes (.unofficialNop b o) s fun t =>
      t.cpu.countdown = (s.cfg.unofficialEntry b).base +
        (if (addrMode o s).1 = true ∧ b ∈ [0x1C#8, 0x3C#8, 0x5C#8, 0x7C#8, 0xDC#8, 0xFC#8] then 1 else 0) ∧
      Keeps [] [] s t ∧ CpuMemoryKept s t ∧ PpuMemoryKept s t ∧ ((∀ p, o ≠ .ind p) → t.ppu = s.ppu))

/-! ## Interrupts (60_exceptions.md) -/

namespace Sys2Proof.Machine

/-- Entry from `s` to `t` through a vector (R406): `PC` high, low and the new status are pushed; the status has B
cleared, U and I set, the rest as before; `PC` is the little-endian word at the vector; `countdown` is set. -/
structure Entered (vector : Addr) (cycles : Nat) (s t : State) : Prop where
  pushed : Pushed [highByte s.cpu.pc, lowByte s.cpu.pc, t.cpu.p] s t
  flags : ∀ f, t.flag f = if f = .B then false else if f = .U ∨ f = .I then true else s.flag f
  pc : t.cpu.pc.toNat = s.wordAt vector
  countdown : t.cpu.countdown = cycles
  cpu : t.cpu = { s.cpu with
    s := t.cpu.s, p := t.cpu.p, pc := t.cpu.pc, countdown := t.cpu.countdown }
  rest : t = { s with cpu := t.cpu, ram := t.ram }

end Sys2Proof.Machine

/-- The NMI enters through 0xFFFA with 8 cycles, unconditionally (R405); the maskable interrupt enters through
0xFFFE with 7 cycles, and has no effect while I is set (R403). -/
def Obligations.NmiAndIrqEnterThroughTheirVectors : Prop :=
  ∀ s : State, Entered 0xFFFA 8 s s.nonMaskableInterrupt ∧
    (s.flag .I = true → s.interrupt = s) ∧ (s.flag .I = false → Entered 0xFFFE 7 s s.interrupt)

/-- BRK (45_stack_flags_system.md R262, decision D6): the pushed status has B, U and I set; the live B is
cleared; `PC` comes from 0xFFFE. -/
def Obligations.BrkEntersThroughTheIrqVector : Prop :=
  ∀ s : State,
    let r : Addr := s.cpu.pc + (if s.cfg.brkReturnOffset = .three then 1 else 0)
    Completes .brk s fun t =>
      (∃ p : Byte, Pushed [highByte r, lowByte r, p] s t ∧
        ∀ f, flagOf f p = if f = .B ∨ f = .U ∨ f = .I then true else s.flag f) ∧
      t.flag .I = true ∧ t.flag .B = false ∧ t.cpu.pc.toNat = s.wordAt 0xFFFE ∧ t.cpu.countdown = 7 ∧
      Keeps [.S, .PC] [.I, .B] s t ∧ PpuMemoryKept s t ∧ t.ppu = s.ppu

/-- RTI (R263, 60_exceptions.md R411): the status from the stack with B cleared and U set, then `PC`. -/
def Obligations.RtiRestoresStatusAndPc : Prop :=
  ∀ s : State, Completes .rti s fun t =>
    (∀ f, t.flag f = if f = .B then false else if f = .U then true else flagOf f (s.stackByte 1)) ∧
    t.cpu.pc.toNat = (s.stackByte 2).toNat + 256 * (s.stackByte 3).toNat ∧ t.cpu.s = s.cpu.s + 3 ∧
    Keeps [.S, .PC] [.C, .Z, .I, .D, .B, .V, .N] s t ∧ TouchesNoMemory s t

/-- A handler that returns at once (R411, an inference of the spec): RTI after an interrupt entry or after BRK
comes back to the saved `PC` with the stack pointer and every flag but I, B, U as before; I is left set. -/
def Obligations.RtiAfterEntryReturnsWithInterruptsDisabled : Prop :=
  ∀ s : State,
    (∀ e, e = s.nonMaskableInterrupt ∨ (s.flag .I = false ∧ e = s.interrupt) → Completes .rti e fun u =>
      u.cpu.pc = s.cpu.pc ∧ u.cpu.s = s.cpu.s ∧ u.flag .I = true ∧ u.flag .B = false ∧
      (∀ f, f ≠ .I → f ≠ .B → f ≠ .U → u.flag f = s.flag f)) ∧
    (s.cfg.brkReturnOffset = .two → Completes .brk s fun e => Completes .rti e fun u =>
      u.cpu.pc = s.cpu.pc ∧ u.cpu.s = s.cpu.s ∧ u.flag .I = true ∧ u.flag .B = false ∧
      (∀ f, f ≠ .I → f ≠ .B → f ≠ .U → u.flag f = s.flag f))

/-! ## Reset and launch (70_reset_and_hazards.md, 60_exceptions.md R420) -/

/-- `BusReset()` (R378, R430, R431): the registers, the vector, and what is kept. -/
def Obligations.ResetLeavesTheSpecifiedState : Prop :=
  ∀ s : State,
    let t := s.busReset
    t.cpu.a = 0x00 ∧ t.cpu.x = 0x00 ∧ t.cpu.y = 0x00 ∧ t.cpu.s = 0xFD ∧ t.cpu.p = 0x20 ∧
    t.cpu.pc.toNat = s.wordAt 0xFFFC ∧ t.cpu.countdown = 8 ∧ t.cpu.ea = 0 ∧ t.cpu.rel = 0 ∧ t.cpu.fetched = 0 ∧
    t.cpu.clockCount = s.cpu.clockCount ∧ t.sysCounter = 0 ∧
    t.ppu = s.ppu ∧ t.ram = s.ram ∧ t.prg = s.prg ∧ t.chr = s.chr ∧ t.cfg = s.cfg

/-- The launch. Exactly the iNES images with the magic bytes, mapper 0, one or two program banks, one character
bank and enough bytes make a cartridge (20_memory.md R88, R89, 60_exceptions.md R420); its arrays are the image's
bytes past the header and the trainer, and its mirroring is bit 0 of byte 6 (D17). A launch without a cartridge
is refused. The reset state of this model is the launch with a blank cartridge and zeros (the model's choice,
log 1 to log 4). -/
def Obligations.AcceptedImagesMakeTheirCartridge : Prop :=
  (∀ image : List Byte,
    let start := 16 + (if (image.getD 6 0).getLsbD 2 then 512 else 0)
    let banks := (image.getD 4 0).toNat
    let accepted := image.take 4 = [0x4E, 0x45, 0x53, 0x1A] ∧
      (image.getD 7 0).toNat / 16 * 16 + (image.getD 6 0).toNat / 16 = 0 ∧ (banks = 1 ∨ banks = 2) ∧
      (image.getD 5 0).toNat = 1 ∧ start + banks * 16384 + 8192 ≤ image.length
    (¬ accepted → ∃ e, Cartridge.fromINes image = .error e) ∧
    (accepted → ∃ c, Cartridge.fromINes image = .ok c ∧
      (c.prgBanks = .one ↔ banks = 1) ∧ (c.mirror = .vertical ↔ (image.getD 6 0).getLsbD 0 = true) ∧
      c.prg.length = banks * 16384 ∧ c.chr.length = 8192 ∧
      (∀ k, k < banks * 16384 → c.prg.getD k 0 = image.getD (start + k) 0) ∧
      (∀ k, k < 8192 → c.chr.getD k 0 = image.getD (start + banks * 16384 + k) 0))) ∧
  (∀ l : Launch, l.cartridge = none → State.launch l = .error .noCartridge) ∧
  State.launch Launch.blank = .ok State.reset

/-- The initial state of a run (10_state.md R60, 70_reset_and_hazards.md R432): a launch with a cartridge is not
refused; every memory holds the launch's contents; the PPU is at power-on, the CPU after reset, from the vector in
program ROM. Past the end of a launch list there are zeros (the model's choice, log 17). -/
def Obligations.ALaunchPutsItsContentsInTheMemories : Prop :=
  ∀ (l : Launch) (c : Cartridge), l.cartridge = some c → ∃ s, State.launch l = .ok s ∧
    (∀ k, k < 2048 → Cells.read s.ram k = l.ram0.getD k 0) ∧
    (∀ k, k < prgSize c.prgBanks → Cells.read s.prg k = c.prg.getD k 0) ∧
    (∀ k, k < 8192 → Cells.read s.chr k = c.chr.getD k 0) ∧
    (∀ k, k < 2048 → Cells.read s.ppu.nt k = l.nt0.getD k 0) ∧
    (∀ k, k < 32 → Cells.read s.ppu.pal k = l.pal0.getD k 0) ∧
    (∀ x y, x < 256 → y < 240 → s.pixel x y = l.fb0.getD (y * 256 + x) 0) ∧
    s.ppu = {
      ctrl := 0, mask := 0, verticalBlank := false, spriteZeroHit := false, spriteOverflow := false
      v := 0, t := 0, fineX := 0, w := false, dataBuf := 0, scanline := -1, dot := 0
      bgNextTileId := 0, bgNextTileAttrib := 0, bgNextTileLsb := 0, bgNextTileMsb := 0
      bgShifterPatternLo := 0, bgShifterPatternHi := 0, bgShifterAttribLo := 0, bgShifterAttribHi := 0
      nmiPending := false, frameComplete := false, nt := s.ppu.nt, pal := s.ppu.pal, fb := s.ppu.fb } ∧
    s.sysCounter = 0 ∧
    s.cpu = { l.cpu0 with
      a := 0, x := 0, y := 0, s := 0xFD, p := 0x20, pc := s.cpu.pc, countdown := 8, ea := 0, rel := 0, fetched := 0 } ∧
    s.cpu.pc.toNat = (c.prg.getD (prgSize c.prgBanks - 4) 0).toNat +
      256 * (c.prg.getD (prgSize c.prgBanks - 3) 0).toNat ∧
    s.cfg = { l.params with prgBanks := c.prgBanks, mirror := c.mirror }

/-! ## The PPU's dot (51_ppu_rendering.md) -/

/-- A dot touches the PPU only (R330 to R350). Of the state that the ports show it changes `v` (R341 to R344) and
the vertical-blank flag (R333, R346); the statement leaves these two out, and says that the rest of it, and PPU
memory, is kept. -/
def Obligations.ADotKeepsAllThatPortsShowButVAndVerticalBlank : Prop :=
  ∀ s : State,
    let t := s.ppuClock
    t = { s with ppu := t.ppu } ∧ t.ppu.ctrl = s.ppu.ctrl ∧ t.ppu.mask = s.ppu.mask ∧ t.ppu.t = s.ppu.t ∧
    t.ppu.fineX = s.ppu.fineX ∧ t.ppu.w = s.ppu.w ∧ t.ppu.dataBuf = s.ppu.dataBuf ∧ t.ppu.nt = s.ppu.nt ∧
    t.ppu.pal = s.ppu.pal ∧ t.ppu.spriteZeroHit = s.ppu.spriteZeroHit ∧
    t.ppu.spriteOverflow = s.ppu.spriteOverflow

/-- The counters over any number of steps (R350), whatever the CPU executes and the mask holds: 341 dots a line,
262 lines a frame; `frameComplete` is set at the wrap and stays set. So from scanline -1, dot 0 the counters are
back after 89342 steps, at no earlier one, and the flag is set at exactly that step. -/
def Obligations.AFrameIs89342Steps : Prop :=
  ∀ (s : State) (n : Nat), s.ppu.inFrame → ∃ t, runSteps n s = .next t ∧ t.ppu.inFrame ∧
    t.ppu.position = (s.ppu.position + n) % 89342 ∧
    t.ppu.frameComplete = (s.ppu.frameComplete || decide (89342 ≤ s.ppu.position + n))

/-- Vertical blank (R333, R346): set at scanline 241, dot 1, cleared at scanline -1, dot 1 when
`PPU_CLEAR_VBLANK_AT_PRERENDER` (D32), otherwise kept; the NMI is requested at the first of these dots, when
enabled, and at no other (D42). -/
def Obligations.VerticalBlankAndNmiRequest : Prop :=
  ∀ s : State,
    let p := s.ppuClock.ppu
    (p.verticalBlank =
      if s.ppu.scanline = 241 ∧ s.ppu.dot = 1 then true
      else if s.ppu.scanline = -1 ∧ s.ppu.dot = 1 ∧ s.cfg.ppuClearVblankAtPrerender = true then false
      else s.ppu.verticalBlank) ∧
    (p.nmiPending =
      (s.ppu.nmiPending || decide (s.ppu.scanline = 241 ∧ s.ppu.dot = 1 ∧ s.ppu.ctrl.getLsbD 7 = true)))

/-- `IncrementScrollX()` (R341): coarse X wraps from 31 to 0 with a toggle of the horizontal nametable bit.
`IncrementScrollY()` (R342): fine Y wraps at 8 into coarse Y, which wraps after 29 with a toggle of the vertical
nametable bit, and after 31 without. The other fields are kept, and nothing changes while not rendering. -/
def Obligations.ScrollIncrementsWrapAndToggle : Prop :=
  ∀ p : Ppu,
    let x := p.incrementScrollX
    let y := p.incrementScrollY
    x = { p with v := x.v } ∧ y = { p with v := y.v } ∧
    (p.mask.getLsbD 3 = false → p.mask.getLsbD 4 = false → x = p ∧ y = p) ∧
    (p.mask.getLsbD 3 = true ∨ p.mask.getLsbD 4 = true →
      (coarseX p.v = 31 → coarseX x.v = 0 ∧ nametableX x.v = 1 - nametableX p.v) ∧
      (coarseX p.v ≠ 31 → (coarseX x.v).toNat = (coarseX p.v).toNat + 1 ∧ nametableX x.v = nametableX p.v) ∧
      coarseY x.v = coarseY p.v ∧ nametableY x.v = nametableY p.v ∧ fineY x.v = fineY p.v ∧
      ((fineY p.v).toNat < 7 → (fineY y.v).toNat = (fineY p.v).toNat + 1 ∧ coarseY y.v = coarseY p.v ∧
        nametableY y.v = nametableY p.v) ∧
      ((fineY p.v).toNat = 7 → fineY y.v = 0 ∧
        (coarseY p.v = 29 → coarseY y.v = 0 ∧ nametableY y.v = 1 - nametableY p.v) ∧
        (coarseY p.v = 31 → coarseY y.v = 0 ∧ nametableY y.v = nametableY p.v) ∧
        (coarseY p.v ≠ 29 → coarseY p.v ≠ 31 →
          (coarseY y.v).toNat = (coarseY p.v).toNat + 1 ∧ nametableY y.v = nametableY p.v)) ∧
      coarseX y.v = coarseX p.v ∧ nametableX y.v = nametableX p.v)

/-- The transfers (R343, R344), as the masks of their comments say. -/
def Obligations.TransfersCopyTheScrollFields : Prop :=
  ∀ p : Ppu,
    let x := p.transferAddressX
    let y := p.transferAddressY
    x = { p with v := x.v } ∧ y = { p with v := y.v } ∧ (p.rendering = false → x = p ∧ y = p) ∧
    (p.rendering = true → x.v = (p.v &&& 0x7BE0#15) ||| (p.t &&& 0x041F#15)) ∧
    (p.rendering = true → y.v = (p.v &&& 0x041F#15) ||| (p.t &&& 0x7BE0#15))

/-- The VRAM address over a dot (R330, R334): which scroll operations run at which dots, and in which order. -/
def Obligations.ScrollOperationsRunAtTheirDots : Prop :=
  ∀ s : State,
    let region := decide (-1 ≤ s.ppu.scanline ∧ s.ppu.scanline ≤ 239)
    let dot := s.ppu.dot
    let p1 := if region ∧ ((2 ≤ dot ∧ dot ≤ 257) ∨ (321 ≤ dot ∧ dot ≤ 337)) ∧ dot % 8 = 0
      then s.ppu.incrementScrollX else s.ppu
    let p2 := if region ∧ dot = 256 then p1.incrementScrollY else p1
    let p3 := if region ∧ dot = 257 then p2.transferAddressX else p2
    let p4 := if s.ppu.scanline = -1 ∧ 280 ≤ dot ∧ dot ≤ 304 then p3.transferAddressY else p3
    s.ppuClock.ppu.v = p4.v

/-- The fetch latches over a dot (R332, R334 to R339): which is loaded, from which address, and that the others
are kept. The address formulas are decisions of the spec (D30). -/
def Obligations.FetchLatchesLoadAtTheirDots : Prop :=
  ∀ s : State,
    let window := decide (-1 ≤ s.ppu.scanline ∧ s.ppu.scanline ≤ 239 ∧
      ((2 ≤ s.ppu.dot ∧ s.ppu.dot ≤ 257) ∨ (321 ≤ s.ppu.dot ∧ s.ppu.dot ≤ 337)))
    let key := s.ppu.dot % 8
    let v := s.ppu.v
    let row : Nat := (if s.ppu.ctrl.getLsbD 4 then 0x1000 else 0) + s.ppu.bgNextTileId.toNat * 16 + (fineY v).toNat
    let attrByte := s.ppuRead (BitVec.ofNat 16 (0x23C0 + (nametableY v).toNat * 0x800 +
      (nametableX v).toNat * 0x400 + (coarseY v).toNat / 4 * 8 + (coarseX v).toNat / 4))
    let shift := (if (coarseY v).toNat / 2 % 2 = 1 then 4 else 0) + (if (coarseX v).toNat / 2 % 2 = 1 then 2 else 0)
    let p := s.ppuClock.ppu
    (p.bgNextTileId =
      if window ∧ key = 1 then s.ppuRead (BitVec.ofNat 16 (0x2000 + v.toNat % 0x1000)) else s.ppu.bgNextTileId) ∧
    (p.bgNextTileAttrib.toNat =
      if window ∧ key = 3 then attrByte.toNat / 2 ^ shift % 4 else s.ppu.bgNextTileAttrib.toNat) ∧
    (p.bgNextTileLsb =
      if window ∧ key = 5 then s.ppuRead (BitVec.ofNat 16 row) else s.ppu.bgNextTileLsb) ∧
    (p.bgNextTileMsb =
      if window ∧ key = 7 then s.ppuRead (BitVec.ofNat 16 (row + 8)) else s.ppu.bgNextTileMsb)

/-- The shift registers over a dot (R335, R348), in both variants of the shift. With the default
`PPU_SHIFT_EVERY_DOT` every dot ends with a shift while the background is on. Otherwise every fetch-window dot
starts with one, before the load, and the compositor makes none. The low bytes are loaded at key 0 of the fetch
windows. The variant is a decision of the spec (D34). -/
def Obligations.ShiftRegistersLoadAndShift : Prop :=
  ∀ s : State,
    let window := decide (-1 ≤ s.ppu.scanline ∧ s.ppu.scanline ≤ 239 ∧
      ((2 ≤ s.ppu.dot ∧ s.ppu.dot ≤ 257) ∨ (321 ≤ s.ppu.dot ∧ s.ppu.dot ≤ 337)))
    let background := s.ppu.mask.getLsbD 3
    let out (r : BitVec 16) (low : Nat) : Nat :=
      let early := if s.cfg.ppuShiftEveryDot = false ∧ window ∧ background then r.toNat * 2 % 65536 else r.toNat
      let loaded := if window ∧ s.ppu.dot % 8 = 1 then early / 256 * 256 + low else early
      if s.cfg.ppuShiftEveryDot = true ∧ background then loaded * 2 % 65536 else loaded
    let p := s.ppuClock.ppu
    p.bgShifterPatternLo.toNat = out s.ppu.bgShifterPatternLo s.ppu.bgNextTileLsb.toNat ∧
    p.bgShifterPatternHi.toNat = out s.ppu.bgShifterPatternHi s.ppu.bgNextTileMsb.toNat ∧
    p.bgShifterAttribLo.toNat = out s.ppu.bgShifterAttribLo (if s.ppu.bgNextTileAttrib.getLsbD 0 then 255 else 0) ∧
    p.bgShifterAttribHi.toNat = out s.ppu.bgShifterAttribHi (if s.ppu.bgNextTileAttrib.getLsbD 1 then 255 else 0)

/-- The compositor (R347, R349): at dot `x + 1` of a visible line the pixel is the palette byte, cut to 6 bits, of
the entry that the four registers give after this dot's load, or of entry 0 while the background is off; every
other pixel is kept. In both variants of the shift: the default samples before it shifts, and the other has
shifted at the start of a fetch-window dot, which is part of `regionStep` (R348). -/
def Obligations.TheCompositorWritesOnePixel : Prop :=
  ∀ s : State,
    let t := s.ppuClock
    let q := s.regionStep.ppu
    let bit (r : BitVec 16) : Nat := if r.getLsbD (15 - s.ppu.fineX.toNat) then 1 else 0
    let entry : Nat := if s.ppu.mask.getLsbD 3 then
        8 * bit q.bgShifterAttribHi + 4 * bit q.bgShifterAttribLo + 2 * bit q.bgShifterPatternHi +
          bit q.bgShifterPatternLo
      else 0
    ∀ x y, x < 256 → y < 240 →
      (t.pixel x y).toNat =
        if s.ppu.dot = x + 1 ∧ s.ppu.scanline = y then
          (s.ppuRead (BitVec.ofNat 16 (0x3F00 + entry))).toNat % 64
        else (s.pixel x y).toNat

/-! ## The bus clock (52_system_clock.md) -/

/-- The machine never stops (60_exceptions.md R400, R421): every step has a next state, and it advances the tick
counter by one. -/
def Obligations.EveryStepHasANextState : Prop :=
  ∀ s : State, ∃ t, step s = .next t ∧ t.sysCounter = s.sysCounter + 1 ∧ t.cfg = s.cfg

/-- A step runs the decoded instruction (R370, R373, 30_encoding.md R132): on a tick with a CPU clock and no
cycles left, the bytes read at `PC` after the tick's dot, one after the other through the bus, decode to an
instruction, and the step is that instruction executed with `PC` past it, then the countdown of this clock and
the end of the tick. A skipped operand byte is not read. -/
def Obligations.AStepRunsTheDecodedInstruction : Prop :=
  ∀ (s : State) (i : Instr) (left : List Byte),
    s.cpu.countdown = 0 → s.sysCounter % 3 = 0 →
    let pc := s.cpu.pc
    let r0 := s.ppuClock.busRead pc
    let r1 := r0.2.busRead (pc + 1)
    let r2 := r1.2.busRead (pc + 2)
    decodeIn s.cfg [r0.1, r1.1, r2.1] = .ok (i, left) →
    let n := i.operand.mode.operandBytes
    let afterReads := if n = 0 ∨ i.operand = .pad then r0.2 else if n = 1 then r1.2 else r2.2
    let u := (((afterReads.setPc (pc + 1 + BitVec.ofNat 16 n)).setFlag .U true).setOpcode r0.1).setMode
      i.operand.mode
    step s = onNext (exec i u) fun t => t.countClock.endTick

/-- A step that fetches nothing (R371, R373): one dot, and on every third tick one cycle less; the rest of the
machine is kept. Where an NMI is requested (scanline 241, dot 1, with the NMI enabled: R346) its entry follows,
and `TheNmiIsDeliveredInItsTick` says what it does; with the NMI disabled that tick is like any other. -/
def Obligations.AStepWithoutAFetchOnlyCounts : Prop :=
  ∀ s : State, s.ppu.nmiPending = false →
    ¬ (s.ppu.scanline = 241 ∧ s.ppu.dot = 1 ∧ s.ppu.ctrl.getLsbD 7 = true) →
    (s.sysCounter % 3 ≠ 0 →
      step s = .next { s with ppu := s.ppuClock.ppu, sysCounter := s.sysCounter + 1 }) ∧
    (s.sysCounter % 3 = 0 → s.cpu.countdown ≠ 0 →
      step s = .next { s with
        ppu := s.ppuClock.ppu
        sysCounter := s.sysCounter + 1
        cpu := { s.cpu with countdown := s.cpu.countdown - 1, clockCount := s.cpu.clockCount + 1 } })

/-- NMI delivery (R376, decision D19): in the tick of scanline 241, dot 1, with the NMI enabled, the entry comes
after the tick's CPU clock, from the state `u` that clock leaves, and nothing stays pending. -/
def Obligations.TheNmiIsDeliveredInItsTick : Prop :=
  ∀ s : State, s.ppu.scanline = 241 → s.ppu.dot = 1 → s.ppu.ctrl.getLsbD 7 = true →
    ∃ u t, cpuPart s.ppuClock = .next u ∧ step s = .next t ∧
      Entered 0xFFFA 8 ((u.setPpu { u.ppu with nmiPending := false }).setSysCounter (s.sysCounter + 1)) t

/-! ## Invariants -/

/-- The invariant of Safety.lean holds of the reset state, with the values this model chose there (log 1 to
log 4). -/
def Obligations.TheInvariantHoldsAtReset : Prop := Inv State.reset

/-- The invariant is kept by every host call, the step among them: the memories stay canonical and in their
bounds, the counters in range, U is 1, no NMI is left pending. -/
def Obligations.EveryHostCallKeepsTheInvariant : Prop :=
  ∀ (c : HostCall) (s : State), Inv s → ∃ t, hostStep c s = .next t ∧ Inv t

/-- Every launch that is not refused starts in the invariant, so every state of every run has it. -/
def Obligations.EveryReachableStateHasTheInvariant : Prop :=
  (∀ (l : Launch) (s : State), l.valid = true → State.launch l = .ok s → Inv s) ∧ ∀ s, Reachable s → Inv s
end

