-- ==== Sys2Proof/Laws/State.lean ====
section
/-! SUPPORT. One lemma per field per register write: the written field has the value, every other keeps its
own. All true by unfolding the write once. -/

namespace Sys2Proof.Machine

/-! setA -/

@[simp] theorem setA_a (st : State) (v : Byte) : (st.setA v).cpu.a = v := rfl
@[simp] theorem setA_x (st : State) (v : Byte) : (st.setA v).cpu.x = st.cpu.x := rfl
@[simp] theorem setA_y (st : State) (v : Byte) : (st.setA v).cpu.y = st.cpu.y := rfl
@[simp] theorem setA_s (st : State) (v : Byte) : (st.setA v).cpu.s = st.cpu.s := rfl
@[simp] theorem setA_pc (st : State) (v : Byte) : (st.setA v).cpu.pc = st.cpu.pc := rfl
@[simp] theorem setA_p (st : State) (v : Byte) : (st.setA v).cpu.p = st.cpu.p := rfl
@[simp] theorem setA_countdown (st : State) (v : Byte) : (st.setA v).cpu.countdown = st.cpu.countdown := rfl
@[simp] theorem setA_opcode (st : State) (v : Byte) : (st.setA v).cpu.opcode = st.cpu.opcode := rfl
@[simp] theorem setA_mode (st : State) (v : Byte) : (st.setA v).cpu.mode = st.cpu.mode := rfl
@[simp] theorem setA_ea (st : State) (v : Byte) : (st.setA v).cpu.ea = st.cpu.ea := rfl
@[simp] theorem setA_rel (st : State) (v : Byte) : (st.setA v).cpu.rel = st.cpu.rel := rfl
@[simp] theorem setA_fetched (st : State) (v : Byte) : (st.setA v).cpu.fetched = st.cpu.fetched := rfl
@[simp] theorem setA_clockCount (st : State) (v : Byte) : (st.setA v).cpu.clockCount = st.cpu.clockCount := rfl
@[simp] theorem setA_cfg (st : State) (v : Byte) : (st.setA v).cfg = st.cfg := rfl
@[simp] theorem setA_ram (st : State) (v : Byte) : (st.setA v).ram = st.ram := rfl
@[simp] theorem setA_sysCounter (st : State) (v : Byte) : (st.setA v).sysCounter = st.sysCounter := rfl
@[simp] theorem setA_ppu (st : State) (v : Byte) : (st.setA v).ppu = st.ppu := rfl
@[simp] theorem setA_prg (st : State) (v : Byte) : (st.setA v).prg = st.prg := rfl
@[simp] theorem setA_chr (st : State) (v : Byte) : (st.setA v).chr = st.chr := rfl

/-! setX -/

@[simp] theorem setX_a (st : State) (v : Byte) : (st.setX v).cpu.a = st.cpu.a := rfl
@[simp] theorem setX_x (st : State) (v : Byte) : (st.setX v).cpu.x = v := rfl
@[simp] theorem setX_y (st : State) (v : Byte) : (st.setX v).cpu.y = st.cpu.y := rfl
@[simp] theorem setX_s (st : State) (v : Byte) : (st.setX v).cpu.s = st.cpu.s := rfl
@[simp] theorem setX_pc (st : State) (v : Byte) : (st.setX v).cpu.pc = st.cpu.pc := rfl
@[simp] theorem setX_p (st : State) (v : Byte) : (st.setX v).cpu.p = st.cpu.p := rfl
@[simp] theorem setX_countdown (st : State) (v : Byte) : (st.setX v).cpu.countdown = st.cpu.countdown := rfl
@[simp] theorem setX_opcode (st : State) (v : Byte) : (st.setX v).cpu.opcode = st.cpu.opcode := rfl
@[simp] theorem setX_mode (st : State) (v : Byte) : (st.setX v).cpu.mode = st.cpu.mode := rfl
@[simp] theorem setX_ea (st : State) (v : Byte) : (st.setX v).cpu.ea = st.cpu.ea := rfl
@[simp] theorem setX_rel (st : State) (v : Byte) : (st.setX v).cpu.rel = st.cpu.rel := rfl
@[simp] theorem setX_fetched (st : State) (v : Byte) : (st.setX v).cpu.fetched = st.cpu.fetched := rfl
@[simp] theorem setX_clockCount (st : State) (v : Byte) : (st.setX v).cpu.clockCount = st.cpu.clockCount := rfl
@[simp] theorem setX_cfg (st : State) (v : Byte) : (st.setX v).cfg = st.cfg := rfl
@[simp] theorem setX_ram (st : State) (v : Byte) : (st.setX v).ram = st.ram := rfl
@[simp] theorem setX_sysCounter (st : State) (v : Byte) : (st.setX v).sysCounter = st.sysCounter := rfl
@[simp] theorem setX_ppu (st : State) (v : Byte) : (st.setX v).ppu = st.ppu := rfl
@[simp] theorem setX_prg (st : State) (v : Byte) : (st.setX v).prg = st.prg := rfl
@[simp] theorem setX_chr (st : State) (v : Byte) : (st.setX v).chr = st.chr := rfl

/-! setY -/

@[simp] theorem setY_a (st : State) (v : Byte) : (st.setY v).cpu.a = st.cpu.a := rfl
@[simp] theorem setY_x (st : State) (v : Byte) : (st.setY v).cpu.x = st.cpu.x := rfl
@[simp] theorem setY_y (st : State) (v : Byte) : (st.setY v).cpu.y = v := rfl
@[simp] theorem setY_s (st : State) (v : Byte) : (st.setY v).cpu.s = st.cpu.s := rfl
@[simp] theorem setY_pc (st : State) (v : Byte) : (st.setY v).cpu.pc = st.cpu.pc := rfl
@[simp] theorem setY_p (st : State) (v : Byte) : (st.setY v).cpu.p = st.cpu.p := rfl
@[simp] theorem setY_countdown (st : State) (v : Byte) : (st.setY v).cpu.countdown = st.cpu.countdown := rfl
@[simp] theorem setY_opcode (st : State) (v : Byte) : (st.setY v).cpu.opcode = st.cpu.opcode := rfl
@[simp] theorem setY_mode (st : State) (v : Byte) : (st.setY v).cpu.mode = st.cpu.mode := rfl
@[simp] theorem setY_ea (st : State) (v : Byte) : (st.setY v).cpu.ea = st.cpu.ea := rfl
@[simp] theorem setY_rel (st : State) (v : Byte) : (st.setY v).cpu.rel = st.cpu.rel := rfl
@[simp] theorem setY_fetched (st : State) (v : Byte) : (st.setY v).cpu.fetched = st.cpu.fetched := rfl
@[simp] theorem setY_clockCount (st : State) (v : Byte) : (st.setY v).cpu.clockCount = st.cpu.clockCount := rfl
@[simp] theorem setY_cfg (st : State) (v : Byte) : (st.setY v).cfg = st.cfg := rfl
@[simp] theorem setY_ram (st : State) (v : Byte) : (st.setY v).ram = st.ram := rfl
@[simp] theorem setY_sysCounter (st : State) (v : Byte) : (st.setY v).sysCounter = st.sysCounter := rfl
@[simp] theorem setY_ppu (st : State) (v : Byte) : (st.setY v).ppu = st.ppu := rfl
@[simp] theorem setY_prg (st : State) (v : Byte) : (st.setY v).prg = st.prg := rfl
@[simp] theorem setY_chr (st : State) (v : Byte) : (st.setY v).chr = st.chr := rfl

/-! setS -/

@[simp] theorem setS_a (st : State) (v : Byte) : (st.setS v).cpu.a = st.cpu.a := rfl
@[simp] theorem setS_x (st : State) (v : Byte) : (st.setS v).cpu.x = st.cpu.x := rfl
@[simp] theorem setS_y (st : State) (v : Byte) : (st.setS v).cpu.y = st.cpu.y := rfl
@[simp] theorem setS_s (st : State) (v : Byte) : (st.setS v).cpu.s = v := rfl
@[simp] theorem setS_pc (st : State) (v : Byte) : (st.setS v).cpu.pc = st.cpu.pc := rfl
@[simp] theorem setS_p (st : State) (v : Byte) : (st.setS v).cpu.p = st.cpu.p := rfl
@[simp] theorem setS_countdown (st : State) (v : Byte) : (st.setS v).cpu.countdown = st.cpu.countdown := rfl
@[simp] theorem setS_opcode (st : State) (v : Byte) : (st.setS v).cpu.opcode = st.cpu.opcode := rfl
@[simp] theorem setS_mode (st : State) (v : Byte) : (st.setS v).cpu.mode = st.cpu.mode := rfl
@[simp] theorem setS_ea (st : State) (v : Byte) : (st.setS v).cpu.ea = st.cpu.ea := rfl
@[simp] theorem setS_rel (st : State) (v : Byte) : (st.setS v).cpu.rel = st.cpu.rel := rfl
@[simp] theorem setS_fetched (st : State) (v : Byte) : (st.setS v).cpu.fetched = st.cpu.fetched := rfl
@[simp] theorem setS_clockCount (st : State) (v : Byte) : (st.setS v).cpu.clockCount = st.cpu.clockCount := rfl
@[simp] theorem setS_cfg (st : State) (v : Byte) : (st.setS v).cfg = st.cfg := rfl
@[simp] theorem setS_ram (st : State) (v : Byte) : (st.setS v).ram = st.ram := rfl
@[simp] theorem setS_sysCounter (st : State) (v : Byte) : (st.setS v).sysCounter = st.sysCounter := rfl
@[simp] theorem setS_ppu (st : State) (v : Byte) : (st.setS v).ppu = st.ppu := rfl
@[simp] theorem setS_prg (st : State) (v : Byte) : (st.setS v).prg = st.prg := rfl
@[simp] theorem setS_chr (st : State) (v : Byte) : (st.setS v).chr = st.chr := rfl

/-! setPc -/

@[simp] theorem setPc_a (st : State) (v : Addr) : (st.setPc v).cpu.a = st.cpu.a := rfl
@[simp] theorem setPc_x (st : State) (v : Addr) : (st.setPc v).cpu.x = st.cpu.x := rfl
@[simp] theorem setPc_y (st : State) (v : Addr) : (st.setPc v).cpu.y = st.cpu.y := rfl
@[simp] theorem setPc_s (st : State) (v : Addr) : (st.setPc v).cpu.s = st.cpu.s := rfl
@[simp] theorem setPc_pc (st : State) (v : Addr) : (st.setPc v).cpu.pc = v := rfl
@[simp] theorem setPc_p (st : State) (v : Addr) : (st.setPc v).cpu.p = st.cpu.p := rfl
@[simp] theorem setPc_countdown (st : State) (v : Addr) : (st.setPc v).cpu.countdown = st.cpu.countdown := rfl
@[simp] theorem setPc_opcode (st : State) (v : Addr) : (st.setPc v).cpu.opcode = st.cpu.opcode := rfl
@[simp] theorem setPc_mode (st : State) (v : Addr) : (st.setPc v).cpu.mode = st.cpu.mode := rfl
@[simp] theorem setPc_ea (st : State) (v : Addr) : (st.setPc v).cpu.ea = st.cpu.ea := rfl
@[simp] theorem setPc_rel (st : State) (v : Addr) : (st.setPc v).cpu.rel = st.cpu.rel := rfl
@[simp] theorem setPc_fetched (st : State) (v : Addr) : (st.setPc v).cpu.fetched = st.cpu.fetched := rfl
@[simp] theorem setPc_clockCount (st : State) (v : Addr) : (st.setPc v).cpu.clockCount = st.cpu.clockCount := rfl
@[simp] theorem setPc_cfg (st : State) (v : Addr) : (st.setPc v).cfg = st.cfg := rfl
@[simp] theorem setPc_ram (st : State) (v : Addr) : (st.setPc v).ram = st.ram := rfl
@[simp] theorem setPc_sysCounter (st : State) (v : Addr) : (st.setPc v).sysCounter = st.sysCounter := rfl
@[simp] theorem setPc_ppu (st : State) (v : Addr) : (st.setPc v).ppu = st.ppu := rfl
@[simp] theorem setPc_prg (st : State) (v : Addr) : (st.setPc v).prg = st.prg := rfl
@[simp] theorem setPc_chr (st : State) (v : Addr) : (st.setPc v).chr = st.chr := rfl

/-! setP -/

@[simp] theorem setP_a (st : State) (v : Byte) : (st.setP v).cpu.a = st.cpu.a := rfl
@[simp] theorem setP_x (st : State) (v : Byte) : (st.setP v).cpu.x = st.cpu.x := rfl
@[simp] theorem setP_y (st : State) (v : Byte) : (st.setP v).cpu.y = st.cpu.y := rfl
@[simp] theorem setP_s (st : State) (v : Byte) : (st.setP v).cpu.s = st.cpu.s := rfl
@[simp] theorem setP_pc (st : State) (v : Byte) : (st.setP v).cpu.pc = st.cpu.pc := rfl
@[simp] theorem setP_p (st : State) (v : Byte) : (st.setP v).cpu.p = v := rfl
@[simp] theorem setP_countdown (st : State) (v : Byte) : (st.setP v).cpu.countdown = st.cpu.countdown := rfl
@[simp] theorem setP_opcode (st : State) (v : Byte) : (st.setP v).cpu.opcode = st.cpu.opcode := rfl
@[simp] theorem setP_mode (st : State) (v : Byte) : (st.setP v).cpu.mode = st.cpu.mode := rfl
@[simp] theorem setP_ea (st : State) (v : Byte) : (st.setP v).cpu.ea = st.cpu.ea := rfl
@[simp] theorem setP_rel (st : State) (v : Byte) : (st.setP v).cpu.rel = st.cpu.rel := rfl
@[simp] theorem setP_fetched (st : State) (v : Byte) : (st.setP v).cpu.fetched = st.cpu.fetched := rfl
@[simp] theorem setP_clockCount (st : State) (v : Byte) : (st.setP v).cpu.clockCount = st.cpu.clockCount := rfl
@[simp] theorem setP_cfg (st : State) (v : Byte) : (st.setP v).cfg = st.cfg := rfl
@[simp] theorem setP_ram (st : State) (v : Byte) : (st.setP v).ram = st.ram := rfl
@[simp] theorem setP_sysCounter (st : State) (v : Byte) : (st.setP v).sysCounter = st.sysCounter := rfl
@[simp] theorem setP_ppu (st : State) (v : Byte) : (st.setP v).ppu = st.ppu := rfl
@[simp] theorem setP_prg (st : State) (v : Byte) : (st.setP v).prg = st.prg := rfl
@[simp] theorem setP_chr (st : State) (v : Byte) : (st.setP v).chr = st.chr := rfl

/-! setCountdown -/

@[simp] theorem setCountdown_a (st : State) (v : Nat) : (st.setCountdown v).cpu.a = st.cpu.a := rfl
@[simp] theorem setCountdown_x (st : State) (v : Nat) : (st.setCountdown v).cpu.x = st.cpu.x := rfl
@[simp] theorem setCountdown_y (st : State) (v : Nat) : (st.setCountdown v).cpu.y = st.cpu.y := rfl
@[simp] theorem setCountdown_s (st : State) (v : Nat) : (st.setCountdown v).cpu.s = st.cpu.s := rfl
@[simp] theorem setCountdown_pc (st : State) (v : Nat) : (st.setCountdown v).cpu.pc = st.cpu.pc := rfl
@[simp] theorem setCountdown_p (st : State) (v : Nat) : (st.setCountdown v).cpu.p = st.cpu.p := rfl
@[simp] theorem setCountdown_countdown (st : State) (v : Nat) : (st.setCountdown v).cpu.countdown = v := rfl
@[simp] theorem setCountdown_opcode (st : State) (v : Nat) : (st.setCountdown v).cpu.opcode = st.cpu.opcode := rfl
@[simp] theorem setCountdown_mode (st : State) (v : Nat) : (st.setCountdown v).cpu.mode = st.cpu.mode := rfl
@[simp] theorem setCountdown_ea (st : State) (v : Nat) : (st.setCountdown v).cpu.ea = st.cpu.ea := rfl
@[simp] theorem setCountdown_rel (st : State) (v : Nat) : (st.setCountdown v).cpu.rel = st.cpu.rel := rfl
@[simp] theorem setCountdown_fetched (st : State) (v : Nat) : (st.setCountdown v).cpu.fetched = st.cpu.fetched := rfl
@[simp] theorem setCountdown_clockCount (st : State) (v : Nat) : (st.setCountdown v).cpu.clockCount = st.cpu.clockCount := rfl
@[simp] theorem setCountdown_cfg (st : State) (v : Nat) : (st.setCountdown v).cfg = st.cfg := rfl
@[simp] theorem setCountdown_ram (st : State) (v : Nat) : (st.setCountdown v).ram = st.ram := rfl
@[simp] theorem setCountdown_sysCounter (st : State) (v : Nat) : (st.setCountdown v).sysCounter = st.sysCounter := rfl
@[simp] theorem setCountdown_ppu (st : State) (v : Nat) : (st.setCountdown v).ppu = st.ppu := rfl
@[simp] theorem setCountdown_prg (st : State) (v : Nat) : (st.setCountdown v).prg = st.prg := rfl
@[simp] theorem setCountdown_chr (st : State) (v : Nat) : (st.setCountdown v).chr = st.chr := rfl

/-! setOpcode -/

@[simp] theorem setOpcode_a (st : State) (v : Byte) : (st.setOpcode v).cpu.a = st.cpu.a := rfl
@[simp] theorem setOpcode_x (st : State) (v : Byte) : (st.setOpcode v).cpu.x = st.cpu.x := rfl
@[simp] theorem setOpcode_y (st : State) (v : Byte) : (st.setOpcode v).cpu.y = st.cpu.y := rfl
@[simp] theorem setOpcode_s (st : State) (v : Byte) : (st.setOpcode v).cpu.s = st.cpu.s := rfl
@[simp] theorem setOpcode_pc (st : State) (v : Byte) : (st.setOpcode v).cpu.pc = st.cpu.pc := rfl
@[simp] theorem setOpcode_p (st : State) (v : Byte) : (st.setOpcode v).cpu.p = st.cpu.p := rfl
@[simp] theorem setOpcode_countdown (st : State) (v : Byte) : (st.setOpcode v).cpu.countdown = st.cpu.countdown := rfl
@[simp] theorem setOpcode_opcode (st : State) (v : Byte) : (st.setOpcode v).cpu.opcode = v := rfl
@[simp] theorem setOpcode_mode (st : State) (v : Byte) : (st.setOpcode v).cpu.mode = st.cpu.mode := rfl
@[simp] theorem setOpcode_ea (st : State) (v : Byte) : (st.setOpcode v).cpu.ea = st.cpu.ea := rfl
@[simp] theorem setOpcode_rel (st : State) (v : Byte) : (st.setOpcode v).cpu.rel = st.cpu.rel := rfl
@[simp] theorem setOpcode_fetched (st : State) (v : Byte) : (st.setOpcode v).cpu.fetched = st.cpu.fetched := rfl
@[simp] theorem setOpcode_clockCount (st : State) (v : Byte) : (st.setOpcode v).cpu.clockCount = st.cpu.clockCount := rfl
@[simp] theorem setOpcode_cfg (st : State) (v : Byte) : (st.setOpcode v).cfg = st.cfg := rfl
@[simp] theorem setOpcode_ram (st : State) (v : Byte) : (st.setOpcode v).ram = st.ram := rfl
@[simp] theorem setOpcode_sysCounter (st : State) (v : Byte) : (st.setOpcode v).sysCounter = st.sysCounter := rfl
@[simp] theorem setOpcode_ppu (st : State) (v : Byte) : (st.setOpcode v).ppu = st.ppu := rfl
@[simp] theorem setOpcode_prg (st : State) (v : Byte) : (st.setOpcode v).prg = st.prg := rfl
@[simp] theorem setOpcode_chr (st : State) (v : Byte) : (st.setOpcode v).chr = st.chr := rfl

/-! setMode -/

@[simp] theorem setMode_a (st : State) (v : Mode) : (st.setMode v).cpu.a = st.cpu.a := rfl
@[simp] theorem setMode_x (st : State) (v : Mode) : (st.setMode v).cpu.x = st.cpu.x := rfl
@[simp] theorem setMode_y (st : State) (v : Mode) : (st.setMode v).cpu.y = st.cpu.y := rfl
@[simp] theorem setMode_s (st : State) (v : Mode) : (st.setMode v).cpu.s = st.cpu.s := rfl
@[simp] theorem setMode_pc (st : State) (v : Mode) : (st.setMode v).cpu.pc = st.cpu.pc := rfl
@[simp] theorem setMode_p (st : State) (v : Mode) : (st.setMode v).cpu.p = st.cpu.p := rfl
@[simp] theorem setMode_countdown (st : State) (v : Mode) : (st.setMode v).cpu.countdown = st.cpu.countdown := rfl
@[simp] theorem setMode_opcode (st : State) (v : Mode) : (st.setMode v).cpu.opcode = st.cpu.opcode := rfl
@[simp] theorem setMode_mode (st : State) (v : Mode) : (st.setMode v).cpu.mode = v := rfl
@[simp] theorem setMode_ea (st : State) (v : Mode) : (st.setMode v).cpu.ea = st.cpu.ea := rfl
@[simp] theorem setMode_rel (st : State) (v : Mode) : (st.setMode v).cpu.rel = st.cpu.rel := rfl
@[simp] theorem setMode_fetched (st : State) (v : Mode) : (st.setMode v).cpu.fetched = st.cpu.fetched := rfl
@[simp] theorem setMode_clockCount (st : State) (v : Mode) : (st.setMode v).cpu.clockCount = st.cpu.clockCount := rfl
@[simp] theorem setMode_cfg (st : State) (v : Mode) : (st.setMode v).cfg = st.cfg := rfl
@[simp] theorem setMode_ram (st : State) (v : Mode) : (st.setMode v).ram = st.ram := rfl
@[simp] theorem setMode_sysCounter (st : State) (v : Mode) : (st.setMode v).sysCounter = st.sysCounter := rfl
@[simp] theorem setMode_ppu (st : State) (v : Mode) : (st.setMode v).ppu = st.ppu := rfl
@[simp] theorem setMode_prg (st : State) (v : Mode) : (st.setMode v).prg = st.prg := rfl
@[simp] theorem setMode_chr (st : State) (v : Mode) : (st.setMode v).chr = st.chr := rfl

/-! setEa -/

@[simp] theorem setEa_a (st : State) (v : Addr) : (st.setEa v).cpu.a = st.cpu.a := rfl
@[simp] theorem setEa_x (st : State) (v : Addr) : (st.setEa v).cpu.x = st.cpu.x := rfl
@[simp] theorem setEa_y (st : State) (v : Addr) : (st.setEa v).cpu.y = st.cpu.y := rfl
@[simp] theorem setEa_s (st : State) (v : Addr) : (st.setEa v).cpu.s = st.cpu.s := rfl
@[simp] theorem setEa_pc (st : State) (v : Addr) : (st.setEa v).cpu.pc = st.cpu.pc := rfl
@[simp] theorem setEa_p (st : State) (v : Addr) : (st.setEa v).cpu.p = st.cpu.p := rfl
@[simp] theorem setEa_countdown (st : State) (v : Addr) : (st.setEa v).cpu.countdown = st.cpu.countdown := rfl
@[simp] theorem setEa_opcode (st : State) (v : Addr) : (st.setEa v).cpu.opcode = st.cpu.opcode := rfl
@[simp] theorem setEa_mode (st : State) (v : Addr) : (st.setEa v).cpu.mode = st.cpu.mode := rfl
@[simp] theorem setEa_ea (st : State) (v : Addr) : (st.setEa v).cpu.ea = v := rfl
@[simp] theorem setEa_rel (st : State) (v : Addr) : (st.setEa v).cpu.rel = st.cpu.rel := rfl
@[simp] theorem setEa_fetched (st : State) (v : Addr) : (st.setEa v).cpu.fetched = st.cpu.fetched := rfl
@[simp] theorem setEa_clockCount (st : State) (v : Addr) : (st.setEa v).cpu.clockCount = st.cpu.clockCount := rfl
@[simp] theorem setEa_cfg (st : State) (v : Addr) : (st.setEa v).cfg = st.cfg := rfl
@[simp] theorem setEa_ram (st : State) (v : Addr) : (st.setEa v).ram = st.ram := rfl
@[simp] theorem setEa_sysCounter (st : State) (v : Addr) : (st.setEa v).sysCounter = st.sysCounter := rfl
@[simp] theorem setEa_ppu (st : State) (v : Addr) : (st.setEa v).ppu = st.ppu := rfl
@[simp] theorem setEa_prg (st : State) (v : Addr) : (st.setEa v).prg = st.prg := rfl
@[simp] theorem setEa_chr (st : State) (v : Addr) : (st.setEa v).chr = st.chr := rfl

/-! setRel -/

@[simp] theorem setRel_a (st : State) (v : Addr) : (st.setRel v).cpu.a = st.cpu.a := rfl
@[simp] theorem setRel_x (st : State) (v : Addr) : (st.setRel v).cpu.x = st.cpu.x := rfl
@[simp] theorem setRel_y (st : State) (v : Addr) : (st.setRel v).cpu.y = st.cpu.y := rfl
@[simp] theorem setRel_s (st : State) (v : Addr) : (st.setRel v).cpu.s = st.cpu.s := rfl
@[simp] theorem setRel_pc (st : State) (v : Addr) : (st.setRel v).cpu.pc = st.cpu.pc := rfl
@[simp] theorem setRel_p (st : State) (v : Addr) : (st.setRel v).cpu.p = st.cpu.p := rfl
@[simp] theorem setRel_countdown (st : State) (v : Addr) : (st.setRel v).cpu.countdown = st.cpu.countdown := rfl
@[simp] theorem setRel_opcode (st : State) (v : Addr) : (st.setRel v).cpu.opcode = st.cpu.opcode := rfl
@[simp] theorem setRel_mode (st : State) (v : Addr) : (st.setRel v).cpu.mode = st.cpu.mode := rfl
@[simp] theorem setRel_ea (st : State) (v : Addr) : (st.setRel v).cpu.ea = st.cpu.ea := rfl
@[simp] theorem setRel_rel (st : State) (v : Addr) : (st.setRel v).cpu.rel = v := rfl
@[simp] theorem setRel_fetched (st : State) (v : Addr) : (st.setRel v).cpu.fetched = st.cpu.fetched := rfl
@[simp] theorem setRel_clockCount (st : State) (v : Addr) : (st.setRel v).cpu.clockCount = st.cpu.clockCount := rfl
@[simp] theorem setRel_cfg (st : State) (v : Addr) : (st.setRel v).cfg = st.cfg := rfl
@[simp] theorem setRel_ram (st : State) (v : Addr) : (st.setRel v).ram = st.ram := rfl
@[simp] theorem setRel_sysCounter (st : State) (v : Addr) : (st.setRel v).sysCounter = st.sysCounter := rfl
@[simp] theorem setRel_ppu (st : State) (v : Addr) : (st.setRel v).ppu = st.ppu := rfl
@[simp] theorem setRel_prg (st : State) (v : Addr) : (st.setRel v).prg = st.prg := rfl
@[simp] theorem setRel_chr (st : State) (v : Addr) : (st.setRel v).chr = st.chr := rfl

/-! setFetched -/

@[simp] theorem setFetched_a (st : State) (v : Byte) : (st.setFetched v).cpu.a = st.cpu.a := rfl
@[simp] theorem setFetched_x (st : State) (v : Byte) : (st.setFetched v).cpu.x = st.cpu.x := rfl
@[simp] theorem setFetched_y (st : State) (v : Byte) : (st.setFetched v).cpu.y = st.cpu.y := rfl
@[simp] theorem setFetched_s (st : State) (v : Byte) : (st.setFetched v).cpu.s = st.cpu.s := rfl
@[simp] theorem setFetched_pc (st : State) (v : Byte) : (st.setFetched v).cpu.pc = st.cpu.pc := rfl
@[simp] theorem setFetched_p (st : State) (v : Byte) : (st.setFetched v).cpu.p = st.cpu.p := rfl
@[simp] theorem setFetched_countdown (st : State) (v : Byte) : (st.setFetched v).cpu.countdown = st.cpu.countdown := rfl
@[simp] theorem setFetched_opcode (st : State) (v : Byte) : (st.setFetched v).cpu.opcode = st.cpu.opcode := rfl
@[simp] theorem setFetched_mode (st : State) (v : Byte) : (st.setFetched v).cpu.mode = st.cpu.mode := rfl
@[simp] theorem setFetched_ea (st : State) (v : Byte) : (st.setFetched v).cpu.ea = st.cpu.ea := rfl
@[simp] theorem setFetched_rel (st : State) (v : Byte) : (st.setFetched v).cpu.rel = st.cpu.rel := rfl
@[simp] theorem setFetched_fetched (st : State) (v : Byte) : (st.setFetched v).cpu.fetched = v := rfl
@[simp] theorem setFetched_clockCount (st : State) (v : Byte) : (st.setFetched v).cpu.clockCount = st.cpu.clockCount := rfl
@[simp] theorem setFetched_cfg (st : State) (v : Byte) : (st.setFetched v).cfg = st.cfg := rfl
@[simp] theorem setFetched_ram (st : State) (v : Byte) : (st.setFetched v).ram = st.ram := rfl
@[simp] theorem setFetched_sysCounter (st : State) (v : Byte) : (st.setFetched v).sysCounter = st.sysCounter := rfl
@[simp] theorem setFetched_ppu (st : State) (v : Byte) : (st.setFetched v).ppu = st.ppu := rfl
@[simp] theorem setFetched_prg (st : State) (v : Byte) : (st.setFetched v).prg = st.prg := rfl
@[simp] theorem setFetched_chr (st : State) (v : Byte) : (st.setFetched v).chr = st.chr := rfl

/-! setClockCount -/

@[simp] theorem setClockCount_a (st : State) (v : Nat) : (st.setClockCount v).cpu.a = st.cpu.a := rfl
@[simp] theorem setClockCount_x (st : State) (v : Nat) : (st.setClockCount v).cpu.x = st.cpu.x := rfl
@[simp] theorem setClockCount_y (st : State) (v : Nat) : (st.setClockCount v).cpu.y = st.cpu.y := rfl
@[simp] theorem setClockCount_s (st : State) (v : Nat) : (st.setClockCount v).cpu.s = st.cpu.s := rfl
@[simp] theorem setClockCount_pc (st : State) (v : Nat) : (st.setClockCount v).cpu.pc = st.cpu.pc := rfl
@[simp] theorem setClockCount_p (st : State) (v : Nat) : (st.setClockCount v).cpu.p = st.cpu.p := rfl
@[simp] theorem setClockCount_countdown (st : State) (v : Nat) : (st.setClockCount v).cpu.countdown = st.cpu.countdown := rfl
@[simp] theorem setClockCount_opcode (st : State) (v : Nat) : (st.setClockCount v).cpu.opcode = st.cpu.opcode := rfl
@[simp] theorem setClockCount_mode (st : State) (v : Nat) : (st.setClockCount v).cpu.mode = st.cpu.mode := rfl
@[simp] theorem setClockCount_ea (st : State) (v : Nat) : (st.setClockCount v).cpu.ea = st.cpu.ea := rfl
@[simp] theorem setClockCount_rel (st : State) (v : Nat) : (st.setClockCount v).cpu.rel = st.cpu.rel := rfl
@[simp] theorem setClockCount_fetched (st : State) (v : Nat) : (st.setClockCount v).cpu.fetched = st.cpu.fetched := rfl
@[simp] theorem setClockCount_clockCount (st : State) (v : Nat) : (st.setClockCount v).cpu.clockCount = v := rfl
@[simp] theorem setClockCount_cfg (st : State) (v : Nat) : (st.setClockCount v).cfg = st.cfg := rfl
@[simp] theorem setClockCount_ram (st : State) (v : Nat) : (st.setClockCount v).ram = st.ram := rfl
@[simp] theorem setClockCount_sysCounter (st : State) (v : Nat) : (st.setClockCount v).sysCounter = st.sysCounter := rfl
@[simp] theorem setClockCount_ppu (st : State) (v : Nat) : (st.setClockCount v).ppu = st.ppu := rfl
@[simp] theorem setClockCount_prg (st : State) (v : Nat) : (st.setClockCount v).prg = st.prg := rfl
@[simp] theorem setClockCount_chr (st : State) (v : Nat) : (st.setClockCount v).chr = st.chr := rfl

/-! setRam -/

@[simp] theorem setRam_cpu (st : State) (v : Memory) : (st.setRam v).cpu = st.cpu := rfl
@[simp] theorem setRam_cfg (st : State) (v : Memory) : (st.setRam v).cfg = st.cfg := rfl
@[simp] theorem setRam_ram (st : State) (v : Memory) : (st.setRam v).ram = v := rfl
@[simp] theorem setRam_sysCounter (st : State) (v : Memory) : (st.setRam v).sysCounter = st.sysCounter := rfl
@[simp] theorem setRam_ppu (st : State) (v : Memory) : (st.setRam v).ppu = st.ppu := rfl
@[simp] theorem setRam_prg (st : State) (v : Memory) : (st.setRam v).prg = st.prg := rfl
@[simp] theorem setRam_chr (st : State) (v : Memory) : (st.setRam v).chr = st.chr := rfl

/-! setSysCounter -/

@[simp] theorem setSysCounter_cpu (st : State) (v : Nat) : (st.setSysCounter v).cpu = st.cpu := rfl
@[simp] theorem setSysCounter_cfg (st : State) (v : Nat) : (st.setSysCounter v).cfg = st.cfg := rfl
@[simp] theorem setSysCounter_ram (st : State) (v : Nat) : (st.setSysCounter v).ram = st.ram := rfl
@[simp] theorem setSysCounter_sysCounter (st : State) (v : Nat) : (st.setSysCounter v).sysCounter = v := rfl
@[simp] theorem setSysCounter_ppu (st : State) (v : Nat) : (st.setSysCounter v).ppu = st.ppu := rfl
@[simp] theorem setSysCounter_prg (st : State) (v : Nat) : (st.setSysCounter v).prg = st.prg := rfl
@[simp] theorem setSysCounter_chr (st : State) (v : Nat) : (st.setSysCounter v).chr = st.chr := rfl

/-! setPpu -/

@[simp] theorem setPpu_cpu (st : State) (v : Ppu) : (st.setPpu v).cpu = st.cpu := rfl
@[simp] theorem setPpu_cfg (st : State) (v : Ppu) : (st.setPpu v).cfg = st.cfg := rfl
@[simp] theorem setPpu_ram (st : State) (v : Ppu) : (st.setPpu v).ram = st.ram := rfl
@[simp] theorem setPpu_sysCounter (st : State) (v : Ppu) : (st.setPpu v).sysCounter = st.sysCounter := rfl
@[simp] theorem setPpu_ppu (st : State) (v : Ppu) : (st.setPpu v).ppu = v := rfl
@[simp] theorem setPpu_prg (st : State) (v : Ppu) : (st.setPpu v).prg = st.prg := rfl
@[simp] theorem setPpu_chr (st : State) (v : Ppu) : (st.setPpu v).chr = st.chr := rfl

/-! setPrg -/

@[simp] theorem setPrg_cpu (st : State) (v : Memory) : (st.setPrg v).cpu = st.cpu := rfl
@[simp] theorem setPrg_cfg (st : State) (v : Memory) : (st.setPrg v).cfg = st.cfg := rfl
@[simp] theorem setPrg_ram (st : State) (v : Memory) : (st.setPrg v).ram = st.ram := rfl
@[simp] theorem setPrg_sysCounter (st : State) (v : Memory) : (st.setPrg v).sysCounter = st.sysCounter := rfl
@[simp] theorem setPrg_ppu (st : State) (v : Memory) : (st.setPrg v).ppu = st.ppu := rfl
@[simp] theorem setPrg_prg (st : State) (v : Memory) : (st.setPrg v).prg = v := rfl
@[simp] theorem setPrg_chr (st : State) (v : Memory) : (st.setPrg v).chr = st.chr := rfl

/-! setChr -/

@[simp] theorem setChr_cpu (st : State) (v : Memory) : (st.setChr v).cpu = st.cpu := rfl
@[simp] theorem setChr_cfg (st : State) (v : Memory) : (st.setChr v).cfg = st.cfg := rfl
@[simp] theorem setChr_ram (st : State) (v : Memory) : (st.setChr v).ram = st.ram := rfl
@[simp] theorem setChr_sysCounter (st : State) (v : Memory) : (st.setChr v).sysCounter = st.sysCounter := rfl
@[simp] theorem setChr_ppu (st : State) (v : Memory) : (st.setChr v).ppu = st.ppu := rfl
@[simp] theorem setChr_prg (st : State) (v : Memory) : (st.setChr v).prg = st.prg := rfl
@[simp] theorem setChr_chr (st : State) (v : Memory) : (st.setChr v).chr = v := rfl

end Sys2Proof.Machine
end

