-- ==== Sys2Proof/Laws/Flags.lean ====
section
/-! SUPPORT. Reading a flag after writing one, and what each flag computation leaves in each flag. -/

namespace Sys2Proof.Machine

@[simp] theorem carryValue_false : carryValue false = 0 := rfl
@[simp] theorem carryValue_true : carryValue true = 1 := rfl

theorem mask_getLsbD (f g : Flag) : (Flag.mask g).getLsbD f.index = decide (f = g) := by
  cases f <;> cases g <;> rfl

theorem index_lt (f : Flag) : f.index < 8 := by cases f <;> decide

/-- A flag after a write: the written flag has the value, every other keeps its own. -/
theorem flagOf_withFlag (f g : Flag) (b : Bool) (p : Byte) :
    flagOf f (withFlag g b p) = if f = g then b else flagOf f p := by
  unfold flagOf withFlag
  cases b
  · rw [if_neg (by decide), BitVec.getLsbD_and, BitVec.getLsbD_not, mask_getLsbD]
    by_cases h : f = g <;> simp only [h, index_lt, decide_true, decide_false, if_true, if_false, Bool.not_true,
      Bool.not_false, Bool.and_true, Bool.and_false]
  · rw [if_pos rfl, BitVec.getLsbD_or, mask_getLsbD]
    by_cases h : f = g <;> simp only [h, decide_true, decide_false, if_true, if_false, Bool.or_true, Bool.or_false]

@[simp] theorem setFlag_p (st : State) (f : Flag) (b : Bool) :
    (st.setFlag f b).cpu.p = withFlag f b st.cpu.p := setP_p st _

/-- A flag of the machine after a write. -/
@[simp] theorem flag_setFlag (st : State) (f g : Flag) (b : Bool) :
    (st.setFlag g b).flag f = if f = g then b else st.flag f := flagOf_withFlag f g b st.cpu.p

/-- Two status bytes with equal flags are equal. -/
theorem eq_of_flags (p q : Byte) (h : ∀ f, flagOf f p = flagOf f q) : p = q := by
  have hC := h .C; have hZ := h .Z; have hI := h .I; have hD := h .D
  have hB := h .B; have hU := h .U; have hV := h .V; have hN := h .N
  simp only [flagOf, Flag.index] at hC hZ hI hD hB hU hV hN
  apply BitVec.eq_of_getLsbD_eq
  intro i hi
  have : i = 0 ∨ i = 1 ∨ i = 2 ∨ i = 3 ∨ i = 4 ∨ i = 5 ∨ i = 6 ∨ i = 7 := by omega
  rcases this with rfl | rfl | rfl | rfl | rfl | rfl | rfl | rfl <;> assumption

/-! A register write other than to `P` keeps every flag. -/

@[simp] theorem flag_setA (st : State) (f : Flag) (v : Byte) : (st.setA v).flag f = st.flag f := congrArg (flagOf f) (setA_p st v)
@[simp] theorem flag_setX (st : State) (f : Flag) (v : Byte) : (st.setX v).flag f = st.flag f := congrArg (flagOf f) (setX_p st v)
@[simp] theorem flag_setY (st : State) (f : Flag) (v : Byte) : (st.setY v).flag f = st.flag f := congrArg (flagOf f) (setY_p st v)
@[simp] theorem flag_setS (st : State) (f : Flag) (v : Byte) : (st.setS v).flag f = st.flag f := congrArg (flagOf f) (setS_p st v)
@[simp] theorem flag_setPc (st : State) (f : Flag) (v : Addr) : (st.setPc v).flag f = st.flag f := congrArg (flagOf f) (setPc_p st v)
@[simp] theorem flag_setP (st : State) (f : Flag) (v : Byte) : (st.setP v).flag f = flagOf f v := congrArg (flagOf f) (setP_p st v)
@[simp] theorem flag_setCountdown (st : State) (f : Flag) (v : Nat) : (st.setCountdown v).flag f = st.flag f := congrArg (flagOf f) (setCountdown_p st v)
@[simp] theorem flag_setOpcode (st : State) (f : Flag) (v : Byte) : (st.setOpcode v).flag f = st.flag f := congrArg (flagOf f) (setOpcode_p st v)
@[simp] theorem flag_setMode (st : State) (f : Flag) (v : Mode) : (st.setMode v).flag f = st.flag f := congrArg (flagOf f) (setMode_p st v)
@[simp] theorem flag_setEa (st : State) (f : Flag) (v : Addr) : (st.setEa v).flag f = st.flag f := congrArg (flagOf f) (setEa_p st v)
@[simp] theorem flag_setRel (st : State) (f : Flag) (v : Addr) : (st.setRel v).flag f = st.flag f := congrArg (flagOf f) (setRel_p st v)
@[simp] theorem flag_setFetched (st : State) (f : Flag) (v : Byte) : (st.setFetched v).flag f = st.flag f := congrArg (flagOf f) (setFetched_p st v)
@[simp] theorem flag_setClockCount (st : State) (f : Flag) (v : Nat) : (st.setClockCount v).flag f = st.flag f := congrArg (flagOf f) (setClockCount_p st v)
@[simp] theorem flag_setRam (st : State) (f : Flag) (v : Memory) : (st.setRam v).flag f = st.flag f := congrArg (fun c : Cpu => flagOf f c.p) (setRam_cpu st v)
@[simp] theorem flag_setSysCounter (st : State) (f : Flag) (v : Nat) : (st.setSysCounter v).flag f = st.flag f := congrArg (fun c : Cpu => flagOf f c.p) (setSysCounter_cpu st v)
@[simp] theorem flag_setPpu (st : State) (f : Flag) (v : Ppu) : (st.setPpu v).flag f = st.flag f := congrArg (fun c : Cpu => flagOf f c.p) (setPpu_cpu st v)
@[simp] theorem flag_setPrg (st : State) (f : Flag) (v : Memory) : (st.setPrg v).flag f = st.flag f := congrArg (fun c : Cpu => flagOf f c.p) (setPrg_cpu st v)
@[simp] theorem flag_setChr (st : State) (f : Flag) (v : Memory) : (st.setChr v).flag f = st.flag f := congrArg (fun c : Cpu => flagOf f c.p) (setChr_cpu st v)

/-- The flags after `SetZN(v)`. -/
@[simp] theorem flag_setZN (st : State) (v : Byte) (f : Flag) :
    (st.setZN v).flag f = if f = .Z then decide (v = 0) else if f = .N then v.msb else st.flag f := by
  cases f <;> simp [State.setZN]

/-- The flags after ADC's computation (R193). -/
@[simp] theorem flag_setAddFlags (st : State) (a m : Byte) (c : Bool) (f : Flag) :
    (st.setAddFlags a m c).flag f =
      if f = .C then decide (addSum a m c > 0xFF)
      else if f = .Z then decide (addByte a m c = 0)
      else if f = .V then addOverflow a m c
      else if f = .N then (addByte a m c).msb
      else st.flag f := by
  cases f <;> simp [State.setAddFlags]

/-- The flags after a compare (R199). -/
@[simp] theorem flag_setCompareFlags (st : State) (r m : Byte) (f : Flag) :
    (st.setCompareFlags r m).flag f =
      if f = .C then decide (r.toNat ≥ m.toNat)
      else if f = .Z then decide (r - m = 0)
      else if f = .N then (r - m).msb
      else st.flag f := by
  cases f <;> simp [State.setCompareFlags]

/-- The flags after BIT (R198). -/
@[simp] theorem flag_setBitFlags (st : State) (a m : Byte) (f : Flag) :
    (st.setBitFlags a m).flag f =
      if f = .Z then decide (a &&& m = 0)
      else if f = .N then m.getLsbD 7
      else if f = .V then m.getLsbD 6
      else st.flag f := by
  cases f <;> simp [State.setBitFlags]

/-- The flags after a shift (R220). -/
@[simp] theorem flag_setShiftFlags (st : State) (out : Bool) (r : Byte) (f : Flag) :
    (st.setShiftFlags out r).flag f =
      if f = .C then out else if f = .Z then decide (r = 0) else if f = .N then r.msb else st.flag f := by
  cases f <;> simp [State.setShiftFlags]

/-! The flag computations change `P` only: every other field is kept. -/

@[simp] theorem setFlag_a (st : State) (f : Flag) (b : Bool) : (st.setFlag f b).cpu.a = st.cpu.a := setP_a st _
@[simp] theorem setFlag_x (st : State) (f : Flag) (b : Bool) : (st.setFlag f b).cpu.x = st.cpu.x := setP_x st _
@[simp] theorem setFlag_y (st : State) (f : Flag) (b : Bool) : (st.setFlag f b).cpu.y = st.cpu.y := setP_y st _
@[simp] theorem setFlag_s (st : State) (f : Flag) (b : Bool) : (st.setFlag f b).cpu.s = st.cpu.s := setP_s st _
@[simp] theorem setFlag_pc (st : State) (f : Flag) (b : Bool) : (st.setFlag f b).cpu.pc = st.cpu.pc := setP_pc st _
@[simp] theorem setFlag_countdown (st : State) (f : Flag) (b : Bool) : (st.setFlag f b).cpu.countdown = st.cpu.countdown := setP_countdown st _
@[simp] theorem setFlag_opcode (st : State) (f : Flag) (b : Bool) : (st.setFlag f b).cpu.opcode = st.cpu.opcode := setP_opcode st _
@[simp] theorem setFlag_mode (st : State) (f : Flag) (b : Bool) : (st.setFlag f b).cpu.mode = st.cpu.mode := setP_mode st _
@[simp] theorem setFlag_ea (st : State) (f : Flag) (b : Bool) : (st.setFlag f b).cpu.ea = st.cpu.ea := setP_ea st _
@[simp] theorem setFlag_rel (st : State) (f : Flag) (b : Bool) : (st.setFlag f b).cpu.rel = st.cpu.rel := setP_rel st _
@[simp] theorem setFlag_fetched (st : State) (f : Flag) (b : Bool) : (st.setFlag f b).cpu.fetched = st.cpu.fetched := setP_fetched st _
@[simp] theorem setFlag_clockCount (st : State) (f : Flag) (b : Bool) : (st.setFlag f b).cpu.clockCount = st.cpu.clockCount := setP_clockCount st _
@[simp] theorem setFlag_cfg (st : State) (f : Flag) (b : Bool) : (st.setFlag f b).cfg = st.cfg := setP_cfg st _
@[simp] theorem setFlag_ram (st : State) (f : Flag) (b : Bool) : (st.setFlag f b).ram = st.ram := setP_ram st _
@[simp] theorem setFlag_sysCounter (st : State) (f : Flag) (b : Bool) : (st.setFlag f b).sysCounter = st.sysCounter := setP_sysCounter st _
@[simp] theorem setFlag_ppu (st : State) (f : Flag) (b : Bool) : (st.setFlag f b).ppu = st.ppu := setP_ppu st _
@[simp] theorem setFlag_prg (st : State) (f : Flag) (b : Bool) : (st.setFlag f b).prg = st.prg := setP_prg st _
@[simp] theorem setFlag_chr (st : State) (f : Flag) (b : Bool) : (st.setFlag f b).chr = st.chr := setP_chr st _

@[simp] theorem setZN_a (st : State) (v : Byte) : (st.setZN v).cpu.a = st.cpu.a := by simp only [State.setZN, setFlag_a]
@[simp] theorem setZN_x (st : State) (v : Byte) : (st.setZN v).cpu.x = st.cpu.x := by simp only [State.setZN, setFlag_x]
@[simp] theorem setZN_y (st : State) (v : Byte) : (st.setZN v).cpu.y = st.cpu.y := by simp only [State.setZN, setFlag_y]
@[simp] theorem setZN_s (st : State) (v : Byte) : (st.setZN v).cpu.s = st.cpu.s := by simp only [State.setZN, setFlag_s]
@[simp] theorem setZN_pc (st : State) (v : Byte) : (st.setZN v).cpu.pc = st.cpu.pc := by simp only [State.setZN, setFlag_pc]
@[simp] theorem setZN_countdown (st : State) (v : Byte) : (st.setZN v).cpu.countdown = st.cpu.countdown := by simp only [State.setZN, setFlag_countdown]
@[simp] theorem setZN_opcode (st : State) (v : Byte) : (st.setZN v).cpu.opcode = st.cpu.opcode := by simp only [State.setZN, setFlag_opcode]
@[simp] theorem setZN_mode (st : State) (v : Byte) : (st.setZN v).cpu.mode = st.cpu.mode := by simp only [State.setZN, setFlag_mode]
@[simp] theorem setZN_ea (st : State) (v : Byte) : (st.setZN v).cpu.ea = st.cpu.ea := by simp only [State.setZN, setFlag_ea]
@[simp] theorem setZN_rel (st : State) (v : Byte) : (st.setZN v).cpu.rel = st.cpu.rel := by simp only [State.setZN, setFlag_rel]
@[simp] theorem setZN_fetched (st : State) (v : Byte) : (st.setZN v).cpu.fetched = st.cpu.fetched := by simp only [State.setZN, setFlag_fetched]
@[simp] theorem setZN_clockCount (st : State) (v : Byte) : (st.setZN v).cpu.clockCount = st.cpu.clockCount := by simp only [State.setZN, setFlag_clockCount]
@[simp] theorem setZN_cfg (st : State) (v : Byte) : (st.setZN v).cfg = st.cfg := by simp only [State.setZN, setFlag_cfg]
@[simp] theorem setZN_ram (st : State) (v : Byte) : (st.setZN v).ram = st.ram := by simp only [State.setZN, setFlag_ram]
@[simp] theorem setZN_sysCounter (st : State) (v : Byte) : (st.setZN v).sysCounter = st.sysCounter := by simp only [State.setZN, setFlag_sysCounter]
@[simp] theorem setZN_ppu (st : State) (v : Byte) : (st.setZN v).ppu = st.ppu := by simp only [State.setZN, setFlag_ppu]
@[simp] theorem setZN_prg (st : State) (v : Byte) : (st.setZN v).prg = st.prg := by simp only [State.setZN, setFlag_prg]
@[simp] theorem setZN_chr (st : State) (v : Byte) : (st.setZN v).chr = st.chr := by simp only [State.setZN, setFlag_chr]

@[simp] theorem setAddFlags_a (st : State) (a m : Byte) (c : Bool) : (st.setAddFlags a m c).cpu.a = st.cpu.a := by simp only [State.setAddFlags, setFlag_a]
@[simp] theorem setAddFlags_x (st : State) (a m : Byte) (c : Bool) : (st.setAddFlags a m c).cpu.x = st.cpu.x := by simp only [State.setAddFlags, setFlag_x]
@[simp] theorem setAddFlags_y (st : State) (a m : Byte) (c : Bool) : (st.setAddFlags a m c).cpu.y = st.cpu.y := by simp only [State.setAddFlags, setFlag_y]
@[simp] theorem setAddFlags_s (st : State) (a m : Byte) (c : Bool) : (st.setAddFlags a m c).cpu.s = st.cpu.s := by simp only [State.setAddFlags, setFlag_s]
@[simp] theorem setAddFlags_pc (st : State) (a m : Byte) (c : Bool) : (st.setAddFlags a m c).cpu.pc = st.cpu.pc := by simp only [State.setAddFlags, setFlag_pc]
@[simp] theorem setAddFlags_countdown (st : State) (a m : Byte) (c : Bool) : (st.setAddFlags a m c).cpu.countdown = st.cpu.countdown := by simp only [State.setAddFlags, setFlag_countdown]
@[simp] theorem setAddFlags_opcode (st : State) (a m : Byte) (c : Bool) : (st.setAddFlags a m c).cpu.opcode = st.cpu.opcode := by simp only [State.setAddFlags, setFlag_opcode]
@[simp] theorem setAddFlags_mode (st : State) (a m : Byte) (c : Bool) : (st.setAddFlags a m c).cpu.mode = st.cpu.mode := by simp only [State.setAddFlags, setFlag_mode]
@[simp] theorem setAddFlags_ea (st : State) (a m : Byte) (c : Bool) : (st.setAddFlags a m c).cpu.ea = st.cpu.ea := by simp only [State.setAddFlags, setFlag_ea]
@[simp] theorem setAddFlags_rel (st : State) (a m : Byte) (c : Bool) : (st.setAddFlags a m c).cpu.rel = st.cpu.rel := by simp only [State.setAddFlags, setFlag_rel]
@[simp] theorem setAddFlags_fetched (st : State) (a m : Byte) (c : Bool) : (st.setAddFlags a m c).cpu.fetched = st.cpu.fetched := by simp only [State.setAddFlags, setFlag_fetched]
@[simp] theorem setAddFlags_clockCount (st : State) (a m : Byte) (c : Bool) : (st.setAddFlags a m c).cpu.clockCount = st.cpu.clockCount := by simp only [State.setAddFlags, setFlag_clockCount]
@[simp] theorem setAddFlags_cfg (st : State) (a m : Byte) (c : Bool) : (st.setAddFlags a m c).cfg = st.cfg := by simp only [State.setAddFlags, setFlag_cfg]
@[simp] theorem setAddFlags_ram (st : State) (a m : Byte) (c : Bool) : (st.setAddFlags a m c).ram = st.ram := by simp only [State.setAddFlags, setFlag_ram]
@[simp] theorem setAddFlags_sysCounter (st : State) (a m : Byte) (c : Bool) : (st.setAddFlags a m c).sysCounter = st.sysCounter := by simp only [State.setAddFlags, setFlag_sysCounter]
@[simp] theorem setAddFlags_ppu (st : State) (a m : Byte) (c : Bool) : (st.setAddFlags a m c).ppu = st.ppu := by simp only [State.setAddFlags, setFlag_ppu]
@[simp] theorem setAddFlags_prg (st : State) (a m : Byte) (c : Bool) : (st.setAddFlags a m c).prg = st.prg := by simp only [State.setAddFlags, setFlag_prg]
@[simp] theorem setAddFlags_chr (st : State) (a m : Byte) (c : Bool) : (st.setAddFlags a m c).chr = st.chr := by simp only [State.setAddFlags, setFlag_chr]

@[simp] theorem setCompareFlags_a (st : State) (r m : Byte) : (st.setCompareFlags r m).cpu.a = st.cpu.a := by simp only [State.setCompareFlags, setZN_a, setFlag_a]
@[simp] theorem setCompareFlags_x (st : State) (r m : Byte) : (st.setCompareFlags r m).cpu.x = st.cpu.x := by simp only [State.setCompareFlags, setZN_x, setFlag_x]
@[simp] theorem setCompareFlags_y (st : State) (r m : Byte) : (st.setCompareFlags r m).cpu.y = st.cpu.y := by simp only [State.setCompareFlags, setZN_y, setFlag_y]
@[simp] theorem setCompareFlags_s (st : State) (r m : Byte) : (st.setCompareFlags r m).cpu.s = st.cpu.s := by simp only [State.setCompareFlags, setZN_s, setFlag_s]
@[simp] theorem setCompareFlags_pc (st : State) (r m : Byte) : (st.setCompareFlags r m).cpu.pc = st.cpu.pc := by simp only [State.setCompareFlags, setZN_pc, setFlag_pc]
@[simp] theorem setCompareFlags_countdown (st : State) (r m : Byte) : (st.setCompareFlags r m).cpu.countdown = st.cpu.countdown := by simp only [State.setCompareFlags, setZN_countdown, setFlag_countdown]
@[simp] theorem setCompareFlags_opcode (st : State) (r m : Byte) : (st.setCompareFlags r m).cpu.opcode = st.cpu.opcode := by simp only [State.setCompareFlags, setZN_opcode, setFlag_opcode]
@[simp] theorem setCompareFlags_mode (st : State) (r m : Byte) : (st.setCompareFlags r m).cpu.mode = st.cpu.mode := by simp only [State.setCompareFlags, setZN_mode, setFlag_mode]
@[simp] theorem setCompareFlags_ea (st : State) (r m : Byte) : (st.setCompareFlags r m).cpu.ea = st.cpu.ea := by simp only [State.setCompareFlags, setZN_ea, setFlag_ea]
@[simp] theorem setCompareFlags_rel (st : State) (r m : Byte) : (st.setCompareFlags r m).cpu.rel = st.cpu.rel := by simp only [State.setCompareFlags, setZN_rel, setFlag_rel]
@[simp] theorem setCompareFlags_fetched (st : State) (r m : Byte) : (st.setCompareFlags r m).cpu.fetched = st.cpu.fetched := by simp only [State.setCompareFlags, setZN_fetched, setFlag_fetched]
@[simp] theorem setCompareFlags_clockCount (st : State) (r m : Byte) : (st.setCompareFlags r m).cpu.clockCount = st.cpu.clockCount := by simp only [State.setCompareFlags, setZN_clockCount, setFlag_clockCount]
@[simp] theorem setCompareFlags_cfg (st : State) (r m : Byte) : (st.setCompareFlags r m).cfg = st.cfg := by simp only [State.setCompareFlags, setZN_cfg, setFlag_cfg]
@[simp] theorem setCompareFlags_ram (st : State) (r m : Byte) : (st.setCompareFlags r m).ram = st.ram := by simp only [State.setCompareFlags, setZN_ram, setFlag_ram]
@[simp] theorem setCompareFlags_sysCounter (st : State) (r m : Byte) : (st.setCompareFlags r m).sysCounter = st.sysCounter := by simp only [State.setCompareFlags, setZN_sysCounter, setFlag_sysCounter]
@[simp] theorem setCompareFlags_ppu (st : State) (r m : Byte) : (st.setCompareFlags r m).ppu = st.ppu := by simp only [State.setCompareFlags, setZN_ppu, setFlag_ppu]
@[simp] theorem setCompareFlags_prg (st : State) (r m : Byte) : (st.setCompareFlags r m).prg = st.prg := by simp only [State.setCompareFlags, setZN_prg, setFlag_prg]
@[simp] theorem setCompareFlags_chr (st : State) (r m : Byte) : (st.setCompareFlags r m).chr = st.chr := by simp only [State.setCompareFlags, setZN_chr, setFlag_chr]

@[simp] theorem setBitFlags_a (st : State) (a m : Byte) : (st.setBitFlags a m).cpu.a = st.cpu.a := by simp only [State.setBitFlags, setFlag_a]
@[simp] theorem setBitFlags_x (st : State) (a m : Byte) : (st.setBitFlags a m).cpu.x = st.cpu.x := by simp only [State.setBitFlags, setFlag_x]
@[simp] theorem setBitFlags_y (st : State) (a m : Byte) : (st.setBitFlags a m).cpu.y = st.cpu.y := by simp only [State.setBitFlags, setFlag_y]
@[simp] theorem setBitFlags_s (st : State) (a m : Byte) : (st.setBitFlags a m).cpu.s = st.cpu.s := by simp only [State.setBitFlags, setFlag_s]
@[simp] theorem setBitFlags_pc (st : State) (a m : Byte) : (st.setBitFlags a m).cpu.pc = st.cpu.pc := by simp only [State.setBitFlags, setFlag_pc]
@[simp] theorem setBitFlags_countdown (st : State) (a m : Byte) : (st.setBitFlags a m).cpu.countdown = st.cpu.countdown := by simp only [State.setBitFlags, setFlag_countdown]
@[simp] theorem setBitFlags_opcode (st : State) (a m : Byte) : (st.setBitFlags a m).cpu.opcode = st.cpu.opcode := by simp only [State.setBitFlags, setFlag_opcode]
@[simp] theorem setBitFlags_mode (st : State) (a m : Byte) : (st.setBitFlags a m).cpu.mode = st.cpu.mode := by simp only [State.setBitFlags, setFlag_mode]
@[simp] theorem setBitFlags_ea (st : State) (a m : Byte) : (st.setBitFlags a m).cpu.ea = st.cpu.ea := by simp only [State.setBitFlags, setFlag_ea]
@[simp] theorem setBitFlags_rel (st : State) (a m : Byte) : (st.setBitFlags a m).cpu.rel = st.cpu.rel := by simp only [State.setBitFlags, setFlag_rel]
@[simp] theorem setBitFlags_fetched (st : State) (a m : Byte) : (st.setBitFlags a m).cpu.fetched = st.cpu.fetched := by simp only [State.setBitFlags, setFlag_fetched]
@[simp] theorem setBitFlags_clockCount (st : State) (a m : Byte) : (st.setBitFlags a m).cpu.clockCount = st.cpu.clockCount := by simp only [State.setBitFlags, setFlag_clockCount]
@[simp] theorem setBitFlags_cfg (st : State) (a m : Byte) : (st.setBitFlags a m).cfg = st.cfg := by simp only [State.setBitFlags, setFlag_cfg]
@[simp] theorem setBitFlags_ram (st : State) (a m : Byte) : (st.setBitFlags a m).ram = st.ram := by simp only [State.setBitFlags, setFlag_ram]
@[simp] theorem setBitFlags_sysCounter (st : State) (a m : Byte) : (st.setBitFlags a m).sysCounter = st.sysCounter := by simp only [State.setBitFlags, setFlag_sysCounter]
@[simp] theorem setBitFlags_ppu (st : State) (a m : Byte) : (st.setBitFlags a m).ppu = st.ppu := by simp only [State.setBitFlags, setFlag_ppu]
@[simp] theorem setBitFlags_prg (st : State) (a m : Byte) : (st.setBitFlags a m).prg = st.prg := by simp only [State.setBitFlags, setFlag_prg]
@[simp] theorem setBitFlags_chr (st : State) (a m : Byte) : (st.setBitFlags a m).chr = st.chr := by simp only [State.setBitFlags, setFlag_chr]

@[simp] theorem setShiftFlags_a (st : State) (out : Bool) (r : Byte) : (st.setShiftFlags out r).cpu.a = st.cpu.a := by simp only [State.setShiftFlags, setZN_a, setFlag_a]
@[simp] theorem setShiftFlags_x (st : State) (out : Bool) (r : Byte) : (st.setShiftFlags out r).cpu.x = st.cpu.x := by simp only [State.setShiftFlags, setZN_x, setFlag_x]
@[simp] theorem setShiftFlags_y (st : State) (out : Bool) (r : Byte) : (st.setShiftFlags out r).cpu.y = st.cpu.y := by simp only [State.setShiftFlags, setZN_y, setFlag_y]
@[simp] theorem setShiftFlags_s (st : State) (out : Bool) (r : Byte) : (st.setShiftFlags out r).cpu.s = st.cpu.s := by simp only [State.setShiftFlags, setZN_s, setFlag_s]
@[simp] theorem setShiftFlags_pc (st : State) (out : Bool) (r : Byte) : (st.setShiftFlags out r).cpu.pc = st.cpu.pc := by simp only [State.setShiftFlags, setZN_pc, setFlag_pc]
@[simp] theorem setShiftFlags_countdown (st : State) (out : Bool) (r : Byte) : (st.setShiftFlags out r).cpu.countdown = st.cpu.countdown := by simp only [State.setShiftFlags, setZN_countdown, setFlag_countdown]
@[simp] theorem setShiftFlags_opcode (st : State) (out : Bool) (r : Byte) : (st.setShiftFlags out r).cpu.opcode = st.cpu.opcode := by simp only [State.setShiftFlags, setZN_opcode, setFlag_opcode]
@[simp] theorem setShiftFlags_mode (st : State) (out : Bool) (r : Byte) : (st.setShiftFlags out r).cpu.mode = st.cpu.mode := by simp only [State.setShiftFlags, setZN_mode, setFlag_mode]
@[simp] theorem setShiftFlags_ea (st : State) (out : Bool) (r : Byte) : (st.setShiftFlags out r).cpu.ea = st.cpu.ea := by simp only [State.setShiftFlags, setZN_ea, setFlag_ea]
@[simp] theorem setShiftFlags_rel (st : State) (out : Bool) (r : Byte) : (st.setShiftFlags out r).cpu.rel = st.cpu.rel := by simp only [State.setShiftFlags, setZN_rel, setFlag_rel]
@[simp] theorem setShiftFlags_fetched (st : State) (out : Bool) (r : Byte) : (st.setShiftFlags out r).cpu.fetched = st.cpu.fetched := by simp only [State.setShiftFlags, setZN_fetched, setFlag_fetched]
@[simp] theorem setShiftFlags_clockCount (st : State) (out : Bool) (r : Byte) : (st.setShiftFlags out r).cpu.clockCount = st.cpu.clockCount := by simp only [State.setShiftFlags, setZN_clockCount, setFlag_clockCount]
@[simp] theorem setShiftFlags_cfg (st : State) (out : Bool) (r : Byte) : (st.setShiftFlags out r).cfg = st.cfg := by simp only [State.setShiftFlags, setZN_cfg, setFlag_cfg]
@[simp] theorem setShiftFlags_ram (st : State) (out : Bool) (r : Byte) : (st.setShiftFlags out r).ram = st.ram := by simp only [State.setShiftFlags, setZN_ram, setFlag_ram]
@[simp] theorem setShiftFlags_sysCounter (st : State) (out : Bool) (r : Byte) : (st.setShiftFlags out r).sysCounter = st.sysCounter := by simp only [State.setShiftFlags, setZN_sysCounter, setFlag_sysCounter]
@[simp] theorem setShiftFlags_ppu (st : State) (out : Bool) (r : Byte) : (st.setShiftFlags out r).ppu = st.ppu := by simp only [State.setShiftFlags, setZN_ppu, setFlag_ppu]
@[simp] theorem setShiftFlags_prg (st : State) (out : Bool) (r : Byte) : (st.setShiftFlags out r).prg = st.prg := by simp only [State.setShiftFlags, setZN_prg, setFlag_prg]
@[simp] theorem setShiftFlags_chr (st : State) (out : Bool) (r : Byte) : (st.setShiftFlags out r).chr = st.chr := by simp only [State.setShiftFlags, setZN_chr, setFlag_chr]

/-- The flags of the status byte that PHP and BRK push (R251, R262). -/
theorem flagOf_pushedWithBreak (p : Byte) (f : Flag) :
    flagOf f (pushedWithBreak p) = if f = .B ∨ f = .U then true else flagOf f p := by
  cases f <;> simp [flagOf, pushedWithBreak, Flag.index]

/-- The flags that PLP makes of the pulled byte (R253). -/
theorem flagOf_plpStatus (p : Byte) (f : Flag) :
    flagOf f (plpStatus p) = if f = .U then true else flagOf f p := by
  cases f <;> simp [flagOf, plpStatus, Flag.index]

/-- The flags that RTI makes of the pulled byte (R263). -/
theorem flagOf_rtiStatus (p : Byte) (f : Flag) :
    flagOf f (rtiStatus p) = if f = .B then false else if f = .U then true else flagOf f p := by
  cases f <;> simp [flagOf, rtiStatus, Flag.index]

end Sys2Proof.Machine
end

