-- ==== Sys2Proof/Laws/Memory.lean ====
section
/-! SUPPORT. What reading and writing a sparse memory do, and that every operation keeps the canonical form
and the size. -/

namespace Sys2Proof.Machine

variable {w : Nat}

@[simp] theorem read_nil (a : Nat) : Cells.read ([] : Cells w) a = Cells.unlisted w := rfl

theorem read_erase (m : Cells w) (a b : Nat) :
    Cells.read (Cells.erase m a) b = if a = b then Cells.unlisted w else Cells.read m b := by
  induction m with
  | nil => simp [Cells.erase]
  | cons c rest ih =>
    obtain ⟨k, v⟩ := c
    by_cases hka : k = a <;> by_cases hab : a = b <;> by_cases hkb : k = b <;>
      simp_all [Cells.erase, Cells.read]

theorem read_insert_of_fresh (m : Cells w) (a b : Nat) (x : BitVec w)
    (h : ∀ c ∈ m, c.1 ≠ a) :
    Cells.read (Cells.insert m a x) b = if a = b then x else Cells.read m b := by
  induction m with
  | nil => simp [Cells.insert, Cells.read]
  | cons c rest ih =>
    obtain ⟨k, v⟩ := c
    have hk : k ≠ a := h (k, v) (by simp)
    have ih := ih fun c hc => h c (by simp [hc])
    by_cases hlt : a < k
    · simp [Cells.insert, hlt, Cells.read]
    · by_cases hkb : k = b
      · have : a ≠ b := by omega
        subst hkb
        simp [Cells.insert, hlt, Cells.read, this]
      · simp [Cells.insert, hlt, Cells.read, hkb, ih]

theorem mem_erase (m : Cells w) (a : Nat) (c : Nat × BitVec w) :
    c ∈ Cells.erase m a ↔ c ∈ m ∧ c.1 ≠ a := by
  induction m with
  | nil => simp [Cells.erase]
  | cons d rest ih =>
    obtain ⟨k, v⟩ := d
    by_cases hk : k = a
    · subst hk
      simp only [Cells.erase, if_true, ih, List.mem_cons]
      constructor
      · rintro ⟨h, hne⟩
        exact ⟨.inr h, hne⟩
      · rintro ⟨rfl | h, hne⟩
        · exact absurd rfl hne
        · exact ⟨h, hne⟩
    · simp only [Cells.erase, hk, if_false, List.mem_cons, ih]
      constructor
      · rintro (rfl | ⟨h, hne⟩)
        · exact ⟨.inl rfl, hk⟩
        · exact ⟨.inr h, hne⟩
      · rintro ⟨rfl | h, hne⟩
        · exact .inl rfl
        · exact .inr ⟨h, hne⟩

/-- A read after a write: the written value at the written index, the old value elsewhere. -/
theorem read_write (m : Cells w) (a b : Nat) (x : BitVec w) :
    Cells.read (Cells.write m a x) b = if a = b then x else Cells.read m b := by
  unfold Cells.write
  split
  · next h => simp [read_erase, h]
  · rw [read_insert_of_fresh _ _ _ _ fun c hc => ((mem_erase m a c).1 hc).2, read_erase]
    split <;> rfl

@[simp] theorem read_write_same (m : Cells w) (a : Nat) (x : BitVec w) :
    Cells.read (Cells.write m a x) a = x := by simp [read_write]

theorem read_write_other (m : Cells w) (a b : Nat) (x : BitVec w) (h : a ≠ b) :
    Cells.read (Cells.write m a x) b = Cells.read m b := by simp [read_write, h]

theorem mem_insert (m : Cells w) (a : Nat) (x : BitVec w) (c : Nat × BitVec w) :
    c ∈ Cells.insert m a x ↔ c = (a, x) ∨ c ∈ m := by
  induction m with
  | nil => simp [Cells.insert]
  | cons d rest ih =>
    obtain ⟨k, v⟩ := d
    by_cases h : a < k
    · simp [Cells.insert, h]
    · simp only [Cells.insert, h, if_false, List.mem_cons, ih]
      tauto

/-- A write adds at most the written cell. -/
theorem mem_write (m : Cells w) (a : Nat) (x : BitVec w) (c : Nat × BitVec w)
    (h : c ∈ Cells.write m a x) : c = (a, x) ∨ c ∈ m := by
  unfold Cells.write at h
  split at h
  · exact .inr ((mem_erase m a c).1 h).1
  · rcases (mem_insert _ _ _ _).1 h with h | h
    · exact .inl h
    · exact .inr ((mem_erase m a c).1 h).1

theorem within_iff (size : Nat) (m : Cells w) :
    Cells.within size m = true ↔ ∀ c ∈ m, c.1 < size := by
  simp [Cells.within]

/-- A write below the size keeps every index below the size. -/
theorem within_write (size : Nat) (m : Cells w) (a : Nat) (x : BitVec w)
    (h : Cells.within size m = true) (ha : a < size) : Cells.within size (Cells.write m a x) = true := by
  rw [within_iff] at h ⊢
  intro c hc
  rcases mem_write m a x c hc with rfl | hm
  · exact ha
  · exact h c hm

theorem wfFrom_mono {lo lo' : Nat} (m : Cells w) (h : Cells.wfFrom lo m = true) (hl : lo' ≤ lo) :
    Cells.wfFrom lo' m = true := by
  cases m with
  | nil => rfl
  | cons c rest =>
    simp only [Cells.wfFrom, Bool.and_eq_true, decide_eq_true_eq] at h ⊢
    exact ⟨⟨by omega, h.1.2⟩, h.2⟩

theorem wfFrom_erase (m : Cells w) (lo a : Nat) (h : Cells.wfFrom lo m = true) :
    Cells.wfFrom lo (Cells.erase m a) = true := by
  induction m generalizing lo with
  | nil => rfl
  | cons c rest ih =>
    simp only [Cells.wfFrom, Bool.and_eq_true, decide_eq_true_eq] at h
    obtain ⟨⟨h1, h2⟩, h3⟩ := h
    unfold Cells.erase
    split
    · exact ih lo (wfFrom_mono _ h3 (by omega))
    · simp [Cells.wfFrom, h1, h2, ih _ h3]

theorem wfFrom_insert (m : Cells w) (lo a : Nat) (x : BitVec w) (h : Cells.wfFrom lo m = true)
    (hl : lo ≤ a) (hx : x ≠ Cells.unlisted w) (hf : ∀ c ∈ m, c.1 ≠ a) :
    Cells.wfFrom lo (Cells.insert m a x) = true := by
  induction m generalizing lo with
  | nil => simp [Cells.insert, Cells.wfFrom, hl, hx]
  | cons c rest ih =>
    obtain ⟨k, v⟩ := c
    simp only [Cells.wfFrom, Bool.and_eq_true, decide_eq_true_eq] at h
    obtain ⟨⟨h1, h2⟩, h3⟩ := h
    have hk : k ≠ a := hf (k, v) (by simp)
    by_cases hlt : a < k
    · simp only [Cells.insert, hlt, if_true, Cells.wfFrom, Bool.and_eq_true, decide_eq_true_eq]
      exact ⟨⟨hl, hx⟩, ⟨⟨by omega, h2⟩, h3⟩⟩
    · simp only [Cells.insert, hlt, if_false, Cells.wfFrom, Bool.and_eq_true, decide_eq_true_eq]
      exact ⟨⟨h1, h2⟩, ih _ h3 (by omega) fun c hc => hf c (by simp [hc])⟩

/-- A write keeps the canonical form. -/
theorem wf_write (m : Cells w) (a : Nat) (x : BitVec w) (h : Cells.wf m = true) :
    Cells.wf (Cells.write m a x) = true := by
  unfold Cells.write
  split
  · exact wfFrom_erase m 0 a h
  · next hx =>
    exact wfFrom_insert _ 0 a x (wfFrom_erase m 0 a h) (by omega) hx
      fun c hc => ((mem_erase m a c).1 hc).2

theorem wfFrom_ofListFrom (l : List (BitVec w)) (k : Nat) :
    Cells.wfFrom k (Cells.ofListFrom k l) = true := by
  induction l generalizing k with
  | nil => rfl
  | cons x xs ih =>
    unfold Cells.ofListFrom
    split
    · exact wfFrom_mono _ (ih (k + 1)) (by omega)
    · next hx => simp [Cells.wfFrom, hx, ih (k + 1)]

/-- The memory of an array is in canonical form. -/
theorem wf_ofList (l : List (BitVec w)) : Cells.wf (Cells.ofList l) = true := wfFrom_ofListFrom l 0

theorem mem_ofListFrom_lt (l : List (BitVec w)) (k : Nat) :
    ∀ c ∈ Cells.ofListFrom k l, c.1 < k + l.length := by
  induction l generalizing k with
  | nil => simp [Cells.ofListFrom]
  | cons x xs ih =>
    intro c hc
    have h := ih (k + 1)
    unfold Cells.ofListFrom at hc
    split at hc
    · have := h c hc
      simp only [List.length_cons]; omega
    · simp only [List.mem_cons] at hc
      rcases hc with rfl | hc
      · simp only [List.length_cons]; omega
      · have := h c hc
        simp only [List.length_cons]; omega

/-- The memory of an array has no index past the array's length. -/
theorem within_ofList (l : List (BitVec w)) (size : Nat) (h : l.length ≤ size) :
    Cells.within size (Cells.ofList l) = true := by
  rw [within_iff]
  intro c hc
  have := mem_ofListFrom_lt l 0 c hc
  omega

theorem read_of_wfFrom_lt (m : Cells w) (lo a : Nat) (h : Cells.wfFrom lo m = true) (ha : a < lo) :
    Cells.read m a = Cells.unlisted w := by
  induction m generalizing lo with
  | nil => rfl
  | cons c rest ih =>
    obtain ⟨k, v⟩ := c
    simp only [Cells.wfFrom, Bool.and_eq_true, decide_eq_true_eq] at h
    have hk : k ≠ a := by omega
    simp only [Cells.read, hk, if_false]
    exact ih (k + 1) h.2 (by omega)

theorem read_ofListFrom (l : List (BitVec w)) (lo k : Nat) :
    Cells.read (Cells.ofListFrom lo l) (lo + k) = l.getD k (Cells.unlisted w) := by
  induction l generalizing lo k with
  | nil => rfl
  | cons x xs ih =>
    unfold Cells.ofListFrom
    cases k with
    | zero =>
      split
      · next hx => exact (read_of_wfFrom_lt _ (lo + 1) lo (wfFrom_ofListFrom xs (lo + 1)) (by omega)).trans hx.symm
      · simp [Cells.read]
    | succ k =>
      have h : lo + (k + 1) = lo + 1 + k := by omega
      have hne : lo ≠ lo + 1 + k := by omega
      rw [h]
      split
      · exact ih (lo + 1) k
      · simp only [Cells.read, hne, if_false]
        exact ih (lo + 1) k

/-- The memory of an array, cut to `n` cells, reads as the array inside them. -/
theorem read_ofList_take (l : List (BitVec w)) (n k : Nat) (h : k < n) :
    Cells.read (Cells.ofList (l.take n)) k = l.getD k (Cells.unlisted w) := by
  have e := read_ofListFrom (l.take n) 0 k
  rw [Nat.zero_add] at e
  rw [Cells.ofList, e]
  simp [List.getD_eq_getElem?_getD, h]

/-- In canonical form, equal contents are equal lists. -/
theorem eq_of_read_eq (m n : Cells w) (lo : Nat) (hm : Cells.wfFrom lo m = true)
    (hn : Cells.wfFrom lo n = true) (h : ∀ a, Cells.read m a = Cells.read n a) : m = n := by
  induction m generalizing n lo with
  | nil =>
    cases n with
    | nil => rfl
    | cons d rest =>
      simp only [Cells.wfFrom, Bool.and_eq_true, decide_eq_true_eq] at hn
      have := h d.1
      simp only [Cells.read, if_true] at this
      exact absurd this.symm hn.1.2
  | cons c rest ih =>
    obtain ⟨k, v⟩ := c
    simp only [Cells.wfFrom, Bool.and_eq_true, decide_eq_true_eq] at hm
    cases n with
    | nil =>
      have := h k
      simp only [Cells.read, if_true] at this
      exact absurd this hm.1.2
    | cons d rest' =>
      obtain ⟨k', v'⟩ := d
      simp only [Cells.wfFrom, Bool.and_eq_true, decide_eq_true_eq] at hn
      have hkk : k = k' := by
        rcases Nat.lt_trichotomy k k' with hlt | heq | hgt
        · have h1 := h k
          have h2 : k' ≠ k := by omega
          simp only [Cells.read, if_true, h2, if_false] at h1
          rw [read_of_wfFrom_lt rest' (k' + 1) k hn.2 (by omega)] at h1
          exact absurd h1 hm.1.2
        · exact heq
        · have h1 := h k'
          have h2 : k ≠ k' := by omega
          simp only [Cells.read, if_true, h2, if_false] at h1
          rw [read_of_wfFrom_lt rest (k + 1) k' hm.2 (by omega)] at h1
          exact absurd h1.symm hn.1.2
      subst hkk
      have hv : v = v' := by simpa [Cells.read] using h k
      subst hv
      have hr : rest = rest' := by
        refine ih rest' (k + 1) hm.2 hn.2 fun a => ?_
        by_cases ha : k = a
        · rw [read_of_wfFrom_lt rest (k + 1) a hm.2 (by omega),
            read_of_wfFrom_lt rest' (k + 1) a hn.2 (by omega)]
        · simpa [Cells.read, ha] using h a
      rw [hr]

end Sys2Proof.Machine
end

