-- ==== Sys2Proof/Laws/Bus.lean ====
section
/-! SUPPORT. What a bus read, a bus write and a PPU memory write can do, and that CPU registers play no part
in them. -/

namespace Sys2Proof.Machine

/-- The state with another CPU: every register write is one. -/
def State.withCpu (st : State) (c : Cpu) : State := { st with cpu := c }

@[simp] theorem withCpu_cpu (st : State) (c : Cpu) : (st.withCpu c).cpu = c := rfl
@[simp] theorem withCpu_cfg (st : State) (c : Cpu) : (st.withCpu c).cfg = st.cfg := rfl
@[simp] theorem withCpu_ram (st : State) (c : Cpu) : (st.withCpu c).ram = st.ram := rfl
@[simp] theorem withCpu_sysCounter (st : State) (c : Cpu) : (st.withCpu c).sysCounter = st.sysCounter := rfl
@[simp] theorem withCpu_ppu (st : State) (c : Cpu) : (st.withCpu c).ppu = st.ppu := rfl
@[simp] theorem withCpu_prg (st : State) (c : Cpu) : (st.withCpu c).prg = st.prg := rfl
@[simp] theorem withCpu_chr (st : State) (c : Cpu) : (st.withCpu c).chr = st.chr := rfl
@[simp] theorem withCpu_withCpu (st : State) (c d : Cpu) : (st.withCpu c).withCpu d = st.withCpu d := rfl
@[simp] theorem withCpu_self (st : State) : st.withCpu st.cpu = st := rfl

theorem withCpu_setPpu (st : State) (c : Cpu) (p : Ppu) : (st.withCpu c).setPpu p = (st.setPpu p).withCpu c := rfl
theorem withCpu_setRam (st : State) (c : Cpu) (m : Memory) : (st.withCpu c).setRam m = (st.setRam m).withCpu c := rfl
theorem withCpu_setPrg (st : State) (c : Cpu) (m : Memory) : (st.withCpu c).setPrg m = (st.setPrg m).withCpu c := rfl
theorem withCpu_setChr (st : State) (c : Cpu) (m : Memory) : (st.withCpu c).setChr m = (st.setChr m).withCpu c := rfl

theorem setA_eq (st : State) (v : Byte) : st.setA v = st.withCpu { st.cpu with a := v } := rfl
theorem setX_eq (st : State) (v : Byte) : st.setX v = st.withCpu { st.cpu with x := v } := rfl
theorem setY_eq (st : State) (v : Byte) : st.setY v = st.withCpu { st.cpu with y := v } := rfl
theorem setS_eq (st : State) (v : Byte) : st.setS v = st.withCpu { st.cpu with s := v } := rfl
theorem setPc_eq (st : State) (v : Addr) : st.setPc v = st.withCpu { st.cpu with pc := v } := rfl
theorem setP_eq (st : State) (v : Byte) : st.setP v = st.withCpu { st.cpu with p := v } := rfl
theorem setCountdown_eq (st : State) (v : Nat) : st.setCountdown v = st.withCpu { st.cpu with countdown := v } := rfl
theorem setOpcode_eq (st : State) (v : Byte) : st.setOpcode v = st.withCpu { st.cpu with opcode := v } := rfl
theorem setMode_eq (st : State) (v : Mode) : st.setMode v = st.withCpu { st.cpu with mode := v } := rfl
theorem setEa_eq (st : State) (v : Addr) : st.setEa v = st.withCpu { st.cpu with ea := v } := rfl
theorem setRel_eq (st : State) (v : Addr) : st.setRel v = st.withCpu { st.cpu with rel := v } := rfl
theorem setFetched_eq (st : State) (v : Byte) : st.setFetched v = st.withCpu { st.cpu with fetched := v } := rfl
theorem setClockCount_eq (st : State) (v : Nat) :
    st.setClockCount v = st.withCpu { st.cpu with clockCount := v } := rfl
theorem setFlag_eq (st : State) (f : Flag) (b : Bool) :
    st.setFlag f b = st.withCpu { st.cpu with p := withFlag f b st.cpu.p } := rfl

/-! ## PPU memory -/

@[simp] theorem ppuRead_withCpu (st : State) (c : Cpu) (a : Addr) : (st.withCpu c).ppuRead a = st.ppuRead a := rfl

theorem ppuWrite_withCpu (st : State) (c : Cpu) (a : Addr) (d : Byte) :
    (st.withCpu c).ppuWrite a d = (st.ppuWrite a d).withCpu c := by
  unfold State.ppuWrite
  simp only [withCpu_cfg, withCpu_chr, withCpu_ppu, withCpu_setChr, withCpu_setPpu]
  repeat' split
  all_goals rfl

/-- A PPU write changes the bytes of one PPU memory: character ROM, nametables or palette. -/
theorem ppuWrite_cases (st : State) (a : Addr) (d : Byte) :
    (∃ off, off ≤ 0x1FFF ∧ st.cfg.chrWritable = true ∧ a.toNat % 0x4000 = off ∧
      st.ppuWrite a d = st.setChr (Cells.write st.chr off d)) ∨
    (a.toNat % 0x4000 ≤ 0x1FFF ∧ st.cfg.chrWritable = false ∧ st.ppuWrite a d = st) ∨
    (0x2000 ≤ a.toNat % 0x4000 ∧ a.toNat % 0x4000 ≤ 0x3EFF ∧
      st.ppuWrite a d =
        st.setPpu { st.ppu with nt := Cells.write st.ppu.nt (ntIndex st.cfg.mirror (a.toNat % 0x4000)) d }) ∨
    (0x3F00 ≤ a.toNat % 0x4000 ∧
      st.ppuWrite a d = st.setPpu { st.ppu with pal := Cells.write st.ppu.pal (palIndex (a.toNat % 0x4000)) d }) := by
  unfold State.ppuWrite mapper0PpuWrite
  by_cases h1 : a.toNat % 0x4000 ≤ 0x1FFF
  · by_cases hw : st.cfg.chrWritable = true
    · left; exact ⟨_, h1, hw, rfl, by simp [h1, hw]⟩
    · right; left; exact ⟨h1, by simpa using hw, by simp [h1, hw]⟩
  · by_cases h2 : a.toNat % 0x4000 ≤ 0x3EFF
    · right; right; left; exact ⟨by omega, h2, by simp [h1, h2]⟩
    · right; right; right; exact ⟨by omega, by simp [h1, h2]⟩

/-- The cell of a nametable address lies in the 2048 bytes of nametable RAM. -/
theorem ntIndex_lt (m : Mirroring) (a : Nat) : ntIndex m a < 2048 := by
  cases m <;> simp only [ntIndex] <;> omega

/-- The cell of a palette address lies in the 32 bytes of palette RAM. -/
theorem palIndex_lt (a : Nat) : palIndex a < 32 := by
  unfold palIndex; simp only; split <;> omega

/-! ## Ports -/

theorem ppuPortRead_withCpu (st : State) (c : Cpu) (p : BitVec 3) :
    (st.withCpu c).ppuPortRead p = ((st.ppuPortRead p).1, (st.ppuPortRead p).2.withCpu c) := by
  unfold State.ppuPortRead
  repeat' split
  all_goals rfl

theorem ppuPortWrite_withCpu (st : State) (c : Cpu) (p : BitVec 3) (d : Byte) :
    (st.withCpu c).ppuPortWrite p d = (st.ppuPortWrite p d).withCpu c := by
  unfold State.ppuPortWrite State.dataWrite
  simp only [ppuWrite_withCpu, withCpu_ppu, withCpu_cfg, withCpu_setPpu]
  repeat' split
  all_goals rfl

/-- What a port read does to the state. -/
theorem ppuPortRead_cases (st : State) (p : BitVec 3) :
    (p ≠ 2 ∧ p ≠ 7 ∧ (st.ppuPortRead p).2 = st) ∨
    (p = 2 ∧ (st.ppuPortRead p).2 = st.setPpu { st.ppu with verticalBlank := false, w := false }) ∨
    (p = 7 ∧ (st.ppuPortRead p).2 =
      st.setPpu { st.ppu with dataBuf := st.ppuRead st.ppu.vAddr, v := st.ppu.nextV }) := by
  by_cases h2 : p = 2
  · subst h2; right; left; exact ⟨rfl, rfl⟩
  · by_cases h7 : p = 7
    · subst h7; right; right; exact ⟨rfl, rfl⟩
    · left
      refine ⟨h2, h7, ?_⟩
      unfold State.ppuPortRead
      simp only [h2, h7, if_false]
      repeat' split
      all_goals rfl

/-- A port write: the data port writes PPU memory and moves `v`; the others change port registers only. -/
theorem ppuPortWrite_cases (st : State) (p : BitVec 3) (d : Byte) :
    (p = 7 ∧ st.ppuPortWrite p d =
      (st.ppuWrite st.ppu.vAddr d).setPpu { (st.ppuWrite st.ppu.vAddr d).ppu with v := st.ppu.nextV }) ∨
    (p ≠ 7 ∧ ∃ c m v t x w, st.ppuPortWrite p d =
      st.setPpu { st.ppu with ctrl := c, mask := m, v := v, t := t, fineX := x, w := w }) := by
  by_cases h7 : p = 7
  · subst h7; left; exact ⟨rfl, rfl⟩
  · right
    refine ⟨h7, ?_⟩
    unfold State.ppuPortWrite
    simp only [h7, if_false]
    split
    · exact ⟨_, _, _, _, _, _, rfl⟩
    · split
      · exact ⟨_, _, _, _, _, _, rfl⟩
      · split
        · unfold Ppu.scrollWrite
          split <;> exact ⟨_, _, _, _, _, _, rfl⟩
        · split
          · unfold Ppu.addressWrite
            split <;> exact ⟨_, _, _, _, _, _, rfl⟩
          · exact ⟨_, _, _, _, _, _, rfl⟩

/-! ## The CPU bus -/

theorem busRead_withCpu (st : State) (c : Cpu) (a : Addr) :
    (st.withCpu c).busRead a = ((st.busRead a).1, (st.busRead a).2.withCpu c) := by
  unfold State.busRead
  simp only [withCpu_cfg, withCpu_prg, withCpu_ram, ppuPortRead_withCpu]
  repeat' split
  all_goals rfl

/-- A bus read by the address: program ROM, work RAM, a port, or the unmapped window. -/
theorem busRead_eq (st : State) (a : Addr) :
    st.busRead a =
      if 0x8000 ≤ a.toNat then (Cells.read st.prg (prgOffset st.cfg.prgBanks a), st)
      else if a.toNat ≤ 0x1FFF then (Cells.read st.ram (ramIndex a), st)
      else if a.toNat ≤ 0x3FFF then st.ppuPortRead (portOf a)
      else (0x00, st) := by
  unfold State.busRead mapper0Cpu
  by_cases h : 0x8000 ≤ a.toNat <;> simp [h]

/-- A bus write by the address. -/
theorem busWrite_eq (st : State) (a : Addr) (d : Byte) :
    st.busWrite a d =
      if 0x8000 ≤ a.toNat then
        if st.cfg.prgWritable then st.setPrg (Cells.write st.prg (prgOffset st.cfg.prgBanks a) d) else st
      else if a.toNat ≤ 0x1FFF then st.setRam (Cells.write st.ram (ramIndex a) d)
      else if a.toNat ≤ 0x3FFF then st.ppuPortWrite (portOf a) d
      else st := by
  unfold State.busWrite mapper0Cpu
  by_cases h : 0x8000 ≤ a.toNat <;> simp [h]

theorem busWrite_withCpu (st : State) (c : Cpu) (a : Addr) (d : Byte) :
    (st.withCpu c).busWrite a d = (st.busWrite a d).withCpu c := by
  rw [busWrite_eq, busWrite_eq]
  simp only [withCpu_cfg, withCpu_prg, withCpu_ram, ppuPortWrite_withCpu, withCpu_setRam, withCpu_setPrg]
  by_cases h1 : 0x8000 ≤ a.toNat
  · by_cases h2 : st.cfg.prgWritable = true <;> simp [h1, h2]
  · by_cases h2 : a.toNat ≤ 0x1FFF
    · simp [h1, h2]
    · by_cases h3 : a.toNat ≤ 0x3FFF <;> simp [h1, h2, h3]

/-- A read of work RAM. -/
theorem busRead_low (st : State) (a : Addr) (h : a.toNat < 0x2000) :
    st.busRead a = (Cells.read st.ram (ramIndex a), st) := by
  rw [busRead_eq, if_neg (by omega), if_pos (by omega)]

/-- A read of program ROM. -/
theorem busRead_high (st : State) (a : Addr) (h : 0x8000 ≤ a.toNat) :
    st.busRead a = (Cells.read st.prg (prgOffset st.cfg.prgBanks a), st) := by
  rw [busRead_eq, if_pos h]

/-- A write of work RAM. -/
theorem busWrite_low (st : State) (a : Addr) (d : Byte) (h : a.toNat < 0x2000) :
    st.busWrite a d = st.setRam (Cells.write st.ram (ramIndex a) d) := by
  rw [busWrite_eq, if_neg (by omega), if_pos (by omega)]

/-- What a bus read does to the state: nothing, or the side effect of port 2 or port 7. -/
theorem busRead_cases (st : State) (a : Addr) :
    (st.busRead a).2 = st ∨
    ((0x2000 ≤ a.toNat ∧ a.toNat ≤ 0x3FFF) ∧
      ((portOf a = 2 ∧ (st.busRead a).2 = st.setPpu { st.ppu with verticalBlank := false, w := false }) ∨
       (portOf a = 7 ∧ (st.busRead a).2 =
        st.setPpu { st.ppu with dataBuf := st.ppuRead st.ppu.vAddr, v := st.ppu.nextV }))) := by
  rw [busRead_eq]
  split
  · left; rfl
  · split
    · left; rfl
    · split
      · rcases ppuPortRead_cases st (portOf a) with ⟨_, _, h⟩ | h | h
        · left; exact h
        · right; exact ⟨by omega, .inl h⟩
        · right; exact ⟨by omega, .inr h⟩
      · left; rfl

/-- A read changes `verticalBlank`, `w`, `dataBuf` and `v` of the PPU at most, and nothing outside it. -/
theorem busRead_state (st : State) (a : Addr) :
    ∃ vb w buf v, (st.busRead a).2 =
      st.setPpu { st.ppu with verticalBlank := vb, w := w, dataBuf := buf, v := v } := by
  rcases busRead_cases st a with h | ⟨_, ⟨_, h⟩ | ⟨_, h⟩⟩
  · exact ⟨st.ppu.verticalBlank, st.ppu.w, st.ppu.dataBuf, st.ppu.v, h⟩
  · exact ⟨_, _, st.ppu.dataBuf, st.ppu.v, h⟩
  · exact ⟨st.ppu.verticalBlank, st.ppu.w, _, _, h⟩

/-- A read outside the ports changes nothing. -/
theorem busRead_of_not_port (st : State) (a : Addr) (h : ¬ (0x2000 ≤ a.toNat ∧ a.toNat ≤ 0x3FFF)) :
    (st.busRead a).2 = st := by
  rcases busRead_cases st a with h' | ⟨h', _⟩
  · exact h'
  · exact absurd h' h

@[simp] theorem busRead_cpu (st : State) (a : Addr) : (st.busRead a).2.cpu = st.cpu := by
  obtain ⟨_, _, _, _, h⟩ := busRead_state st a; rw [h]; rfl
@[simp] theorem busRead_cfg (st : State) (a : Addr) : (st.busRead a).2.cfg = st.cfg := by
  obtain ⟨_, _, _, _, h⟩ := busRead_state st a; rw [h]; rfl
@[simp] theorem busRead_ram (st : State) (a : Addr) : (st.busRead a).2.ram = st.ram := by
  obtain ⟨_, _, _, _, h⟩ := busRead_state st a; rw [h]; rfl
@[simp] theorem busRead_prg (st : State) (a : Addr) : (st.busRead a).2.prg = st.prg := by
  obtain ⟨_, _, _, _, h⟩ := busRead_state st a; rw [h]; rfl
@[simp] theorem busRead_chr (st : State) (a : Addr) : (st.busRead a).2.chr = st.chr := by
  obtain ⟨_, _, _, _, h⟩ := busRead_state st a; rw [h]; rfl
@[simp] theorem busRead_sysCounter (st : State) (a : Addr) : (st.busRead a).2.sysCounter = st.sysCounter := by
  obtain ⟨_, _, _, _, h⟩ := busRead_state st a; rw [h]; rfl
@[simp] theorem busRead_nt (st : State) (a : Addr) : (st.busRead a).2.ppu.nt = st.ppu.nt := by
  obtain ⟨_, _, _, _, h⟩ := busRead_state st a; rw [h]; rfl
@[simp] theorem busRead_pal (st : State) (a : Addr) : (st.busRead a).2.ppu.pal = st.ppu.pal := by
  obtain ⟨_, _, _, _, h⟩ := busRead_state st a; rw [h]; rfl
@[simp] theorem busRead_fb (st : State) (a : Addr) : (st.busRead a).2.ppu.fb = st.ppu.fb := by
  obtain ⟨_, _, _, _, h⟩ := busRead_state st a; rw [h]; rfl

/-- The byte of a non-port address depends on `cfg`, `ram` and `prg` only. -/
theorem busRead_byte_congr (s t : State) (a : Addr) (h : ¬ (0x2000 ≤ a.toNat ∧ a.toNat ≤ 0x3FFF))
    (hc : t.cfg = s.cfg) (hr : t.ram = s.ram) (hp : t.prg = s.prg) : (t.busRead a).1 = (s.busRead a).1 := by
  rw [busRead_eq, busRead_eq, hc, hr, hp]
  split
  · rfl
  · split
    · rfl
    · split
      · omega
      · rfl

/-- A PPU read depends on `cfg`, `chr`, `nt` and `pal` only. -/
theorem ppuRead_congr (s t : State) (a : Addr) (hc : t.cfg = s.cfg) (hh : t.chr = s.chr)
    (hn : t.ppu.nt = s.ppu.nt) (hp : t.ppu.pal = s.ppu.pal) : t.ppuRead a = s.ppuRead a := by
  unfold State.ppuRead; rw [hc, hh, hn, hp]

@[simp] theorem ppuWrite_cpu (st : State) (a : Addr) (d : Byte) : (st.ppuWrite a d).cpu = st.cpu := by
  rcases ppuWrite_cases st a d with ⟨_, _, _, _, h⟩ | ⟨_, _, h⟩ | ⟨_, _, h⟩ | ⟨_, h⟩ <;> rw [h] <;> rfl
@[simp] theorem ppuWrite_cfg (st : State) (a : Addr) (d : Byte) : (st.ppuWrite a d).cfg = st.cfg := by
  rcases ppuWrite_cases st a d with ⟨_, _, _, _, h⟩ | ⟨_, _, h⟩ | ⟨_, _, h⟩ | ⟨_, h⟩ <;> rw [h] <;> rfl
@[simp] theorem ppuWrite_ram (st : State) (a : Addr) (d : Byte) : (st.ppuWrite a d).ram = st.ram := by
  rcases ppuWrite_cases st a d with ⟨_, _, _, _, h⟩ | ⟨_, _, h⟩ | ⟨_, _, h⟩ | ⟨_, h⟩ <;> rw [h] <;> rfl
@[simp] theorem ppuWrite_prg (st : State) (a : Addr) (d : Byte) : (st.ppuWrite a d).prg = st.prg := by
  rcases ppuWrite_cases st a d with ⟨_, _, _, _, h⟩ | ⟨_, _, h⟩ | ⟨_, _, h⟩ | ⟨_, h⟩ <;> rw [h] <;> rfl
@[simp] theorem ppuWrite_sysCounter (st : State) (a : Addr) (d : Byte) :
    (st.ppuWrite a d).sysCounter = st.sysCounter := by
  rcases ppuWrite_cases st a d with ⟨_, _, _, _, h⟩ | ⟨_, _, h⟩ | ⟨_, _, h⟩ | ⟨_, h⟩ <;> rw [h] <;> rfl
/-- A PPU write changes nametable and palette cells of the PPU at most. -/
theorem ppuWrite_ppu (st : State) (a : Addr) (d : Byte) :
    ∃ nt pal, (st.ppuWrite a d).ppu = { st.ppu with nt := nt, pal := pal } := by
  rcases ppuWrite_cases st a d with ⟨_, _, _, _, h⟩ | ⟨_, _, h⟩ | ⟨_, _, h⟩ | ⟨_, h⟩ <;> rw [h]
  · exact ⟨st.ppu.nt, st.ppu.pal, rfl⟩
  · exact ⟨st.ppu.nt, st.ppu.pal, rfl⟩
  · exact ⟨_, st.ppu.pal, rfl⟩
  · exact ⟨st.ppu.nt, _, rfl⟩

/-- What a bus write does to the state. -/
theorem busWrite_cases (st : State) (a : Addr) (d : Byte) :
    (0x8000 ≤ a.toNat ∧ st.cfg.prgWritable = true ∧
      st.busWrite a d = st.setPrg (Cells.write st.prg (prgOffset st.cfg.prgBanks a) d)) ∨
    (a.toNat ≤ 0x1FFF ∧ st.busWrite a d = st.setRam (Cells.write st.ram (ramIndex a) d)) ∨
    ((0x2000 ≤ a.toNat ∧ a.toNat ≤ 0x3FFF) ∧ st.busWrite a d = st.ppuPortWrite (portOf a) d) ∨
    (((0x4000 ≤ a.toNat ∧ a.toNat < 0x8000) ∨ (0x8000 ≤ a.toNat ∧ st.cfg.prgWritable = false)) ∧
      st.busWrite a d = st) := by
  rw [busWrite_eq]
  by_cases h1 : 0x8000 ≤ a.toNat
  · by_cases hw : st.cfg.prgWritable = true
    · left; exact ⟨h1, hw, by simp [h1, hw]⟩
    · right; right; right; exact ⟨.inr ⟨h1, by simpa using hw⟩, by simp [h1, hw]⟩
  · by_cases h2 : a.toNat ≤ 0x1FFF
    · right; left; exact ⟨h2, by simp [h1, h2]⟩
    · by_cases h3 : a.toNat ≤ 0x3FFF
      · right; right; left; exact ⟨⟨by omega, h3⟩, by simp [h1, h2, h3]⟩
      · right; right; right; exact ⟨.inl (by omega), by simp [h1, h2, h3]⟩

/-- A port write changes PPU state and character ROM at most. -/
theorem ppuPortWrite_state (st : State) (p : BitVec 3) (d : Byte) :
    ∃ c m v t x w nt pal chr, st.ppuPortWrite p d =
      (st.setPpu { st.ppu with
        ctrl := c, mask := m, v := v, t := t, fineX := x, w := w, nt := nt, pal := pal }).setChr chr := by
  rcases ppuPortWrite_cases st p d with ⟨_, h⟩ | ⟨_, c, m, v, t, x, w, h⟩
  · rw [h]
    obtain ⟨nt, pal, h'⟩ := ppuWrite_ppu st st.ppu.vAddr d
    refine ⟨st.ppu.ctrl, st.ppu.mask, st.ppu.nextV, st.ppu.t, st.ppu.fineX, st.ppu.w, nt, pal,
      (st.ppuWrite st.ppu.vAddr d).chr, ?_⟩
    rw [h']
    have e : st.ppuWrite st.ppu.vAddr d =
        (st.setPpu (st.ppuWrite st.ppu.vAddr d).ppu).setChr (st.ppuWrite st.ppu.vAddr d).chr := by
      rcases ppuWrite_cases st st.ppu.vAddr d with ⟨_, _, _, _, h'⟩ | ⟨_, _, h'⟩ | ⟨_, _, h'⟩ | ⟨_, h'⟩ <;>
        rw [h'] <;> rfl
    exact congrArg (fun s => State.setPpu s _) e
  · exact ⟨c, m, v, t, x, w, st.ppu.nt, st.ppu.pal, st.chr, h⟩

@[simp] theorem ppuPortWrite_cpu (st : State) (p : BitVec 3) (d : Byte) : (st.ppuPortWrite p d).cpu = st.cpu := by
  obtain ⟨_, _, _, _, _, _, _, _, _, h⟩ := ppuPortWrite_state st p d; rw [h]; rfl
@[simp] theorem ppuPortWrite_cfg (st : State) (p : BitVec 3) (d : Byte) : (st.ppuPortWrite p d).cfg = st.cfg := by
  obtain ⟨_, _, _, _, _, _, _, _, _, h⟩ := ppuPortWrite_state st p d; rw [h]; rfl
@[simp] theorem ppuPortWrite_ram (st : State) (p : BitVec 3) (d : Byte) : (st.ppuPortWrite p d).ram = st.ram := by
  obtain ⟨_, _, _, _, _, _, _, _, _, h⟩ := ppuPortWrite_state st p d; rw [h]; rfl
@[simp] theorem ppuPortWrite_prg (st : State) (p : BitVec 3) (d : Byte) : (st.ppuPortWrite p d).prg = st.prg := by
  obtain ⟨_, _, _, _, _, _, _, _, _, h⟩ := ppuPortWrite_state st p d; rw [h]; rfl
@[simp] theorem ppuPortWrite_sysCounter (st : State) (p : BitVec 3) (d : Byte) :
    (st.ppuPortWrite p d).sysCounter = st.sysCounter := by
  obtain ⟨_, _, _, _, _, _, _, _, _, h⟩ := ppuPortWrite_state st p d; rw [h]; rfl

@[simp] theorem busWrite_cpu (st : State) (a : Addr) (d : Byte) : (st.busWrite a d).cpu = st.cpu := by
  rcases busWrite_cases st a d with ⟨_, _, h⟩ | ⟨_, h⟩ | ⟨_, h⟩ | ⟨_, h⟩ <;> rw [h] <;> simp
@[simp] theorem busWrite_cfg (st : State) (a : Addr) (d : Byte) : (st.busWrite a d).cfg = st.cfg := by
  rcases busWrite_cases st a d with ⟨_, _, h⟩ | ⟨_, h⟩ | ⟨_, h⟩ | ⟨_, h⟩ <;> rw [h] <;> simp
@[simp] theorem busWrite_sysCounter (st : State) (a : Addr) (d : Byte) :
    (st.busWrite a d).sysCounter = st.sysCounter := by
  rcases busWrite_cases st a d with ⟨_, _, h⟩ | ⟨_, h⟩ | ⟨_, h⟩ | ⟨_, h⟩ <;> rw [h] <;> simp

@[simp] theorem busRead_flag (st : State) (a : Addr) (f : Flag) : (st.busRead a).2.flag f = st.flag f := by
  unfold State.flag; rw [busRead_cpu]
@[simp] theorem busWrite_flag (st : State) (a : Addr) (d : Byte) (f : Flag) :
    (st.busWrite a d).flag f = st.flag f := by
  unfold State.flag; rw [busWrite_cpu]

end Sys2Proof.Machine
end

