-- ==== Sys2Proof/Laws/Effects.lean ====
section
/-! SUPPORT. What any instruction can do, said once: a finite sequence of CPU register writes, bus reads and bus
writes. A property that these three keep is kept by every instruction, by interrupt entry and by reset. -/

namespace Sys2Proof.Machine

/-- `t` comes from `s` by CPU register writes, bus reads and bus writes. -/
inductive Effects : State → State → Prop where
  | refl (s : State) : Effects s s
  | cpu {s t : State} (h : Effects s t) (c : Cpu) : Effects s (t.withCpu c)
  | read {s t : State} (h : Effects s t) (a : Addr) : Effects s (t.busRead a).2
  | write {s t : State} (h : Effects s t) (a : Addr) (d : Byte) : Effects s (t.busWrite a d)

namespace Effects

theorem setA {s t : State} (h : Effects s t) (v : Byte) : Effects s (t.setA v) := h.cpu _
theorem setX {s t : State} (h : Effects s t) (v : Byte) : Effects s (t.setX v) := h.cpu _
theorem setY {s t : State} (h : Effects s t) (v : Byte) : Effects s (t.setY v) := h.cpu _
theorem setS {s t : State} (h : Effects s t) (v : Byte) : Effects s (t.setS v) := h.cpu _
theorem setPc {s t : State} (h : Effects s t) (v : Addr) : Effects s (t.setPc v) := h.cpu _
theorem setP {s t : State} (h : Effects s t) (v : Byte) : Effects s (t.setP v) := h.cpu _
theorem setCountdown {s t : State} (h : Effects s t) (v : Nat) : Effects s (t.setCountdown v) := h.cpu _
theorem setOpcode {s t : State} (h : Effects s t) (v : Byte) : Effects s (t.setOpcode v) := h.cpu _
theorem setMode {s t : State} (h : Effects s t) (v : Mode) : Effects s (t.setMode v) := h.cpu _
theorem setEa {s t : State} (h : Effects s t) (v : Addr) : Effects s (t.setEa v) := h.cpu _
theorem setRel {s t : State} (h : Effects s t) (v : Addr) : Effects s (t.setRel v) := h.cpu _
theorem setFetched {s t : State} (h : Effects s t) (v : Byte) : Effects s (t.setFetched v) := h.cpu _
theorem setFlag {s t : State} (h : Effects s t) (f : Flag) (b : Bool) : Effects s (t.setFlag f b) := h.cpu _
theorem setZN {s t : State} (h : Effects s t) (v : Byte) : Effects s (t.setZN v) := h.cpu _
theorem setAddFlags {s t : State} (h : Effects s t) (a m : Byte) (c : Bool) : Effects s (t.setAddFlags a m c) :=
  h.cpu _
theorem setCompareFlags {s t : State} (h : Effects s t) (r m : Byte) : Effects s (t.setCompareFlags r m) := h.cpu _
theorem setBitFlags {s t : State} (h : Effects s t) (a m : Byte) : Effects s (t.setBitFlags a m) := h.cpu _
theorem setShiftFlags {s t : State} (h : Effects s t) (b : Bool) (r : Byte) : Effects s (t.setShiftFlags b r) :=
  h.cpu _
theorem addToA {s t : State} (h : Effects s t) (m : Byte) : Effects s (t.addToA m) := (h.setAddFlags _ _ _).setA _

theorem push {s t : State} (h : Effects s t) (v : Byte) : Effects s (t.push v) := (h.write _ _).setS _
theorem push16 {s t : State} (h : Effects s t) (w : Addr) : Effects s (t.push16 w) := (h.push _).push _
theorem pull {s t : State} (h : Effects s t) : Effects s t.pull.2 := (h.setS _).read _
theorem pull16 {s t : State} (h : Effects s t) : Effects s t.pull16.2 := h.pull.pull
theorem memRead16 {s t : State} (h : Effects s t) (a : Addr) : Effects s (t.memRead16 a).2 := (h.read _).read _
theorem jumpThrough {s t : State} (h : Effects s t) (v : Addr) : Effects s (t.jumpThrough v) :=
  (h.memRead16 v).setPc _

theorem interruptEntry {s t : State} (h : Effects s t) (v : Addr) (n : Nat) : Effects s (t.interruptEntry v n) :=
  ((((((h.push16 _).setFlag _ _).setFlag _ _).setFlag _ _).push _).jumpThrough v).setCountdown n

theorem nonMaskableInterrupt {s t : State} (h : Effects s t) : Effects s t.nonMaskableInterrupt :=
  h.interruptEntry _ _

theorem interrupt {s t : State} (h : Effects s t) : Effects s t.interrupt := by
  unfold State.interrupt; split
  · exact h
  · exact h.interruptEntry _ _

theorem brkEntry {s t : State} (h : Effects s t) : Effects s t.brkEntry :=
  ((((h.setFlag _ _).push16 _).push _).setFlag _ _).jumpThrough _

theorem returnFromInterrupt {s t : State} (h : Effects s t) : Effects s t.returnFromInterrupt :=
  ((h.pull.setP _).pull16).setPc _

theorem cpuReset {s t : State} (h : Effects s t) : Effects s t.cpuReset := (h.memRead16 resetVector).cpu _

theorem addrMode {s t : State} (h : Effects s t) (o : Operand) : Effects s (addrMode o t).2 := by
  cases o
  case imp => exact h.setFetched _
  case imm => exact h.setEa _
  case pad => exact h.setEa _
  case zp0 => exact h.setEa _
  case zpx => exact h.setEa _
  case zpy => exact h.setEa _
  case rel => exact h.setRel _
  case abs => exact h.setEa _
  case abx => exact h.setEa _
  case aby => exact h.setEa _
  case ind => exact ((h.read _).read _).setEa _
  case izx => exact ((h.read _).read _).setEa _
  case izy => exact ((h.read _).read _).setEa _

theorem fetch {s t : State} (h : Effects s t) (o : Operand) : Effects s (fetch o t).2 := by
  cases o
  case imp => exact h.setFetched _
  case imm => exact h.setFetched _
  all_goals exact (h.read _).setFetched _

theorem writeBack {s t : State} (h : Effects s t) (o : Operand) (r : Byte) : Effects s (writeBack o r t) := by
  cases o
  case imp => exact h.setA _
  all_goals exact h.write _ _

theorem complete {s : State} {r : OpResult} (h : Effects s r.state) (base : Nat) (s1 : Bool) :
    Effects s (complete base s1 r) := (h.setCountdown _).setFlag _ _

theorem branchIf {s t : State} (h : Effects s t) (c : Bool) : Effects s (branchIf c t).state := by
  cases c
  · exact h
  · exact (h.setEa _).setPc _

theorem shiftResult {s t : State} (h : Effects s t) (o : Operand) (b : Bool) (r : Byte) :
    Effects s (shiftResult o b r t).state := (h.setShiftFlags _ _).writeBack _ _

theorem nextByte {s t : State} (h : Effects s t) : Effects s t.nextByte.2 := (h.read _).setPc _

theorem fetchOperands {s t : State} (h : Effects s t) (d : Descriptor) : Effects s (t.fetchOperands d).2 := by
  unfold State.fetchOperands
  split
  · exact h.setPc _
  · split
    · exact h
    · exact h.nextByte
    · exact h.nextByte.nextByte

theorem fetchInstr {s t : State} (h : Effects s t) : Effects s t.fetchInstr.2 :=
  (((h.nextByte.setFlag _ _).setOpcode _).setMode _).fetchOperands _

end Effects

/-- An instruction answers a next state, and reaches it by elementary effects. -/
theorem exec_effects (i : Instr) (s : State) : ∃ t, exec i s = .next t ∧ Effects s t := by
  have m (o : Operand) : Effects s (addrMode o s).2 := (Effects.refl s).addrMode o
  cases i <;> refine ⟨_, rfl, Effects.complete ?_ _ _⟩
  case lda o => exact (((m o).fetch o).setA _).setZN _
  case ldx o => exact (((m o).fetch o).setX _).setZN _
  case ldy o => exact (((m o).fetch o).setY _).setZN _
  case sta o => exact (m o).write _ _
  case stx o => exact (m o).write _ _
  case sty o => exact (m o).write _ _
  case tax => exact ((m .imp).setX _).setZN _
  case tay => exact ((m .imp).setY _).setZN _
  case txa => exact ((m .imp).setA _).setZN _
  case tya => exact ((m .imp).setA _).setZN _
  case tsx => exact ((m .imp).setX _).setZN _
  case txs => exact (m .imp).setS _
  case adc o => exact ((m o).fetch o).addToA _
  case sbc o => exact ((m o).fetch o).addToA _
  case and o => exact (((m o).fetch o).setA _).setZN _
  case ora o => exact (((m o).fetch o).setA _).setZN _
  case eor o => exact (((m o).fetch o).setA _).setZN _
  case bit o => exact ((m o).fetch o).setBitFlags _ _
  case cmp o => exact ((m o).fetch o).setCompareFlags _ _
  case cpx o => exact ((m o).fetch o).setCompareFlags _ _
  case cpy o => exact ((m o).fetch o).setCompareFlags _ _
  case inc o => exact (((m o).fetch o).write _ _).setZN _
  case dec o => exact (((m o).fetch o).write _ _).setZN _
  case inx => exact ((m .imp).setX _).setZN _
  case iny => exact ((m .imp).setY _).setZN _
  case dex => exact ((m .imp).setX _).setZN _
  case dey => exact ((m .imp).setY _).setZN _
  case asl o => exact ((m o).fetch o).shiftResult o _ _
  case lsr o => exact ((m o).fetch o).shiftResult o _ _
  case rol o => exact ((m o).fetch o).shiftResult o _ _
  case ror o => exact ((m o).fetch o).shiftResult o _ _
  case bcc b => exact (m (.rel b)).branchIf _
  case bcs b => exact (m (.rel b)).branchIf _
  case beq b => exact (m (.rel b)).branchIf _
  case bne b => exact (m (.rel b)).branchIf _
  case bmi b => exact (m (.rel b)).branchIf _
  case bpl b => exact (m (.rel b)).branchIf _
  case bvc b => exact (m (.rel b)).branchIf _
  case bvs b => exact (m (.rel b)).branchIf _
  case jmp o => exact (m o).setPc _
  case jsr w => exact ((m (.abs w)).push16 _).setPc _
  case rts => exact (m .imp).pull16.setPc _
  case pha => exact (m .imp).push _
  case php => exact ((m .imp).push _).setFlag _ _
  case pla => exact ((m .imp).pull.setA _).setZN _
  case plp => exact (m .imp).pull.setP _
  case clc => exact (m .imp).setFlag _ _
  case sec => exact (m .imp).setFlag _ _
  case cli => exact (m .imp).setFlag _ _
  case sei => exact (m .imp).setFlag _ _
  case cld => exact (m .imp).setFlag _ _
  case sed => exact (m .imp).setFlag _ _
  case clv => exact (m .imp).setFlag _ _
  case nop => exact m .imp
  case brk => exact (m .pad).brkEntry
  case rti => exact (m .imp).returnFromInterrupt
  case xxx b o => exact m o
  case unofficialNop b o => exact m o

/-- A property of states that register writes, bus reads and bus writes keep is kept by any effects. -/
theorem Effects.keeps {s t : State} (h : Effects s t) (q : State → Prop) (hs : q s)
    (hc : ∀ u c, q u → q (u.withCpu c)) (hr : ∀ u a, q u → q (u.busRead a).2)
    (hw : ∀ u a d, q u → q (u.busWrite a d)) : q t := by
  induction h with
  | refl => exact hs
  | cpu _ c ih => exact hc _ c ih
  | read _ a ih => exact hr _ a ih
  | write _ a d ih => exact hw _ a d ih

theorem Effects.trans {s t u : State} (h : Effects s t) (h' : Effects t u) : Effects s u :=
  h'.keeps (Effects s) h (fun _ c q => q.cpu c) (fun _ a q => q.read a) (fun _ a d q => q.write a d)

/-- The CPU's part of a tick answers a next state, and reaches it by elementary effects. -/
theorem cpuPart_effects (s : State) : ∃ t, cpuPart s = .next t ∧ Effects s t := by
  unfold cpuPart cpuClock
  split
  · split
    · obtain ⟨t, ht, e⟩ := exec_effects s.fetchInstr.1 s.fetchInstr.2
      exact ⟨t.countClock, by unfold executeInstruction; rw [ht]; rfl,
        (((Effects.refl s).fetchInstr.trans e).setCountdown _).cpu _⟩
    · exact ⟨_, rfl, ((Effects.refl s).setCountdown _).cpu _⟩
  · exact ⟨s, rfl, .refl s⟩

/-- The launch constants are kept. -/
theorem Effects.cfg {s t : State} (h : Effects s t) : t.cfg = s.cfg :=
  h.keeps (fun u => u.cfg = s.cfg) rfl (fun _ _ q => q) (fun _ _ q => by simpa using q)
    (fun _ _ _ q => by simpa using q)

/-- The tick counter is kept. -/
theorem Effects.sysCounter {s t : State} (h : Effects s t) : t.sysCounter = s.sysCounter :=
  h.keeps (fun u => u.sysCounter = s.sysCounter) rfl (fun _ _ q => q) (fun _ _ q => by simpa using q)
    (fun _ _ _ q => by simpa using q)

/-- The part of the PPU that no port reaches: counters, latches, shift registers, sprite flags, the NMI request,
`frameComplete` and the framebuffer. -/
def Ppu.SameEngine (p q : Ppu) : Prop :=
  q = { p with
    ctrl := q.ctrl, mask := q.mask, verticalBlank := q.verticalBlank, v := q.v, t := q.t, fineX := q.fineX
    w := q.w, dataBuf := q.dataBuf, nt := q.nt, pal := q.pal }

theorem busRead_engine (s : State) (a : Addr) : Ppu.SameEngine s.ppu (s.busRead a).2.ppu := by
  obtain ⟨_, _, _, _, h⟩ := busRead_state s a; rw [h]; rfl

theorem busWrite_engine (s : State) (a : Addr) (d : Byte) : Ppu.SameEngine s.ppu (s.busWrite a d).ppu := by
  rcases busWrite_cases s a d with ⟨_, _, h⟩ | ⟨_, h⟩ | ⟨_, h⟩ | ⟨_, h⟩ <;> rw [h]
  · rfl
  · rfl
  · obtain ⟨_, _, _, _, _, _, _, _, _, h'⟩ := ppuPortWrite_state s (portOf a) d; rw [h']; rfl
  · rfl

theorem Ppu.SameEngine.trans {p q r : Ppu} (h : Ppu.SameEngine p q) (h' : Ppu.SameEngine q r) :
    Ppu.SameEngine p r := by
  unfold Ppu.SameEngine at *; rw [h', h]

/-- No instruction reaches the rendering engine of the PPU. -/
theorem Effects.engine {s t : State} (h : Effects s t) : Ppu.SameEngine s.ppu t.ppu :=
  h.keeps (fun u => Ppu.SameEngine s.ppu u.ppu) rfl (fun _ _ q => q)
    (fun u a q => q.trans (busRead_engine u a)) (fun u a d q => q.trans (busWrite_engine u a d))

end Sys2Proof.Machine
end

