-- ==== Sys2Proof/Laws/Encoding.lean ====
section
/-! SUPPORT. The decoding tables: which bytes are official, what the descriptors build, and that the two lists of
unofficial bytes agree with the matrix of 30_encoding.md R127. -/

namespace Sys2Proof

/-- The descriptor of an official byte is its matrix cell. -/
theorem descriptor_of_cell (c : Config) (op : Byte) (d : Descriptor) (h : cellOf officialMatrix op = some d) :
    descriptor c op = d := by unfold descriptor; rw [h]

/-- The descriptor of an unofficial byte is built from the run's table. -/
theorem descriptor_of_no_cell (c : Config) (op : Byte) (h : cellOf officialMatrix op = none) :
    descriptor c op = placeholder op (c.unofficialEntry op) := by unfold descriptor; rw [h]

/-- The unofficial bytes are those without a cell in the official matrix (R124, R127). -/
theorem unofficial_iff : ∀ op : Byte, isUnofficial op = true ↔ (cellOf officialMatrix op).isNone = true := by decide

/-- The default entries: the operations of the two lists, in mode IMP. -/
theorem default_entry_shape : ∀ op : Byte, isUnofficial op = true →
    (((cellOf placeholderMatrix op).getD ⟨.xxx, .IMP, 2⟩).op,
      ((cellOf placeholderMatrix op).getD ⟨.xxx, .IMP, 2⟩).mode) =
      (if placeholderNopBytes.contains op then .nop else .xxx, .IMP) := by decide

/-- The default entries take 2 to 8 cycles (R133). -/
theorem default_entry_base : ∀ op : Byte,
    2 ≤ ((cellOf placeholderMatrix op).getD ⟨.xxx, .IMP, 2⟩).base ∧
      ((cellOf placeholderMatrix op).getD ⟨.xxx, .IMP, 2⟩).base ≤ 8 := by decide

/-- The well-formedness check and the decoder read one table of the unofficial bytes. -/
theorem placeholderShape_eq (c : Config) (op : Byte) (h : isUnofficial op = true) :
    c.placeholderShape op = ((c.unofficialEntry op).op, (c.unofficialEntry op).mode) := by
  unfold Config.placeholderShape Config.unofficialEntry
  cases c.unofficial.lookup op with
  | some e => rfl
  | none => exact (default_entry_shape op h).symm

/-- An operand form has as many bytes as its mode. -/
theorem bytes_length (o : Operand) : o.bytes.length = o.mode.operandBytes := by cases o <;> rfl

theorem operandOf_mode (m : Mode) (b1 b2 : Byte) : (operandOf m b1 b2).mode = m := by cases m <;> rfl

theorem unreadOperandOf_mode (m : Mode) (b1 b2 : Byte) : (unreadOperandOf m b1 b2).mode = m := by cases m <;> rfl

/-- What every cell of the official matrix builds: an instruction that exists under any table, with the cell's
opcode byte and mode; but for the skipped byte of BRK, its operand is assembled from the operand bytes. -/
structure CellOk (op : Byte) (d : Descriptor) : Prop where
  wellFormed : ∀ c b1 b2, (d.build b1 b2).wellFormedIn c = true
  opcode : ∀ c b1 b2, opcodeIn c (d.build b1 b2) = some op
  mode : ∀ b1 b2, (d.build b1 b2).operand.mode = d.mode
  operand : ∀ b1 b2, (d.build b1 b2).operand ≠ .pad → (d.build b1 b2).operand = operandOf d.mode b1 b2
  reads : ∀ b1 b2, (d.build b1 b2).operand = .pad ↔ (d.mode = .IMM ∧ d.readsImm = false)

theorem cellOk_of_number (n : Nat) (hn : n < 256) (d : Descriptor)
    (h : cellOf officialMatrix (BitVec.ofNat 8 n) = some d) : CellOk (BitVec.ofNat 8 n) d := by
  interval_cases n <;> simp only [cellOf] at h <;> cases h <;> first
    | exact ⟨fun _ _ _ => rfl, fun _ _ _ => rfl, fun _ _ => rfl, fun _ _ _ => rfl,
        fun _ _ => ⟨fun k => by simp [Instr.operand, operandOf] at k, fun k => Bool.noConfusion k.2⟩⟩
    | exact ⟨fun _ _ _ => rfl, fun _ _ _ => rfl, fun _ _ => rfl, fun _ _ k => absurd rfl k,
        fun _ _ => ⟨fun _ => ⟨rfl, rfl⟩, fun _ => rfl⟩⟩

theorem cellOk_of_cell (op : Byte) (d : Descriptor) (h : cellOf officialMatrix op = some d) : CellOk op d := by
  have e : BitVec.ofNat 8 op.toNat = op := by simp
  rw [← e] at h ⊢
  exact cellOk_of_number _ op.isLt d h

end Sys2Proof
end

