-- ==== Sys2Proof/Laws/Rendering.lean ====
section
/-! SUPPORT. Each sub-step of a PPU dot as one update of PPU fields, with the conditions inside the fields; and
the whole dot as a frame: which fields no dot changes. -/

namespace Sys2Proof.Machine

/-- A PPU read is the same after any change of PPU fields other than `nt` and `pal`. -/
theorem ppuRead_setPpu (st : State) (p : Ppu) (a : Addr) (hn : p.nt = st.ppu.nt) (hp : p.pal = st.ppu.pal) :
    (st.setPpu p).ppuRead a = st.ppuRead a := ppuRead_congr st (st.setPpu p) a rfl rfl hn hp

theorem scrollIf_eq (p : Ppu) (v' : Loopy) : p.scrollIf v' = { p with v := if p.rendering then v' else p.v } := by
  unfold Ppu.scrollIf; split <;> rfl

theorem clearVblankStep_eq (st : State) :
    st.clearVblankStep = st.setPpu { st.ppu with
      verticalBlank :=
        if st.ppu.scanline = -1 ∧ st.ppu.dot = 1 ∧ st.cfg.ppuClearVblankAtPrerender = true then false
        else st.ppu.verticalBlank } := by
  unfold State.clearVblankStep
  by_cases h : st.ppu.scanline = -1 ∧ st.ppu.dot = 1 ∧ st.cfg.ppuClearVblankAtPrerender = true
  · rw [if_pos h, if_pos h]
  · rw [if_neg h, if_neg h]; rfl

theorem earlyShift_eq (st : State) :
    st.earlyShift =
      if st.cfg.ppuShiftEveryDot = false ∧ st.ppu.renderBackground = true then st.setPpu st.ppu.shiftBackground
      else st := by
  unfold State.earlyShift
  by_cases h : st.cfg.ppuShiftEveryDot = true <;> simp [h]

theorem earlyShift_default (st : State) (h : st.cfg.ppuShiftEveryDot = true) : st.earlyShift = st := by
  rw [earlyShift_eq]; simp [h]

theorem incrementYStep_eq (st : State) :
    st.incrementYStep = st.setPpu { st.ppu with
      v := if st.ppu.dot = 256 then st.ppu.incrementScrollY.v else st.ppu.v } := by
  unfold State.incrementYStep Ppu.incrementScrollY
  rw [scrollIf_eq]
  split <;> rfl

theorem transferXStep_eq (st : State) :
    st.transferXStep = st.setPpu { st.ppu with
      v := if st.ppu.dot = 257 then st.ppu.transferAddressX.v else st.ppu.v } := by
  unfold State.transferXStep Ppu.transferAddressX
  rw [scrollIf_eq]
  split <;> rfl

theorem transferYStep_eq (st : State) :
    st.transferYStep = st.setPpu { st.ppu with
      v := if st.ppu.scanline = -1 ∧ 280 ≤ st.ppu.dot ∧ st.ppu.dot ≤ 304 then st.ppu.transferAddressY.v
        else st.ppu.v } := by
  unfold State.transferYStep Ppu.transferAddressY
  rw [scrollIf_eq]
  split <;> rfl

/-- The action of a fetch-window dot as one update. -/
theorem fetchAction_eq (st : State) :
    st.fetchAction = st.setPpu { st.ppu with
      bgShifterPatternLo := if (st.ppu.dot - 1) % 8 = 0 then loadLow st.ppu.bgShifterPatternLo st.ppu.bgNextTileLsb
        else st.ppu.bgShifterPatternLo
      bgShifterPatternHi := if (st.ppu.dot - 1) % 8 = 0 then loadLow st.ppu.bgShifterPatternHi st.ppu.bgNextTileMsb
        else st.ppu.bgShifterPatternHi
      bgShifterAttribLo := if (st.ppu.dot - 1) % 8 = 0
        then loadLow st.ppu.bgShifterAttribLo (eightOf (st.ppu.bgNextTileAttrib.getLsbD 0))
        else st.ppu.bgShifterAttribLo
      bgShifterAttribHi := if (st.ppu.dot - 1) % 8 = 0
        then loadLow st.ppu.bgShifterAttribHi (eightOf (st.ppu.bgNextTileAttrib.getLsbD 1))
        else st.ppu.bgShifterAttribHi
      bgNextTileId := if (st.ppu.dot - 1) % 8 = 0 then st.ppuRead (tileAddr st.ppu.v) else st.ppu.bgNextTileId
      bgNextTileAttrib := if (st.ppu.dot - 1) % 8 = 2
        then attributeBits st.ppu.v (st.ppuRead (attributeAddr st.ppu.v)) else st.ppu.bgNextTileAttrib
      bgNextTileLsb := if (st.ppu.dot - 1) % 8 = 4 then st.ppuRead (st.ppu.patternAddr 0) else st.ppu.bgNextTileLsb
      bgNextTileMsb := if (st.ppu.dot - 1) % 8 = 6 then st.ppuRead (st.ppu.patternAddr 8) else st.ppu.bgNextTileMsb
      v := if (st.ppu.dot - 1) % 8 = 7 then st.ppu.incrementScrollX.v else st.ppu.v } := by
  have h8 : (st.ppu.dot - 1) % 8 < 8 := Nat.mod_lt _ (by decide)
  unfold State.fetchAction
  generalize hk : (st.ppu.dot - 1) % 8 = k at *
  have : k = 0 ∨ k = 1 ∨ k = 2 ∨ k = 3 ∨ k = 4 ∨ k = 5 ∨ k = 6 ∨ k = 7 := by omega
  rcases this with rfl | rfl | rfl | rfl | rfl | rfl | rfl | rfl
  all_goals try rfl
  simp only [Ppu.incrementScrollX, scrollIf_eq]
  rfl

theorem compositeStep_eq (st : State) :
    st.compositeStep =
      if st.cfg.ppuShiftEveryDot = true ∧ st.ppu.renderBackground = true then
        st.setPpu ({ st.ppu with fb := st.fbAfter }).shiftBackground
      else st.setPpu { st.ppu with fb := st.fbAfter } := by
  show st.setPpu (if st.cfg.ppuShiftEveryDot = true ∧ st.ppu.renderBackground = true then
    ({ st.ppu with fb := st.fbAfter }).shiftBackground else { st.ppu with fb := st.fbAfter }) = _
  split <;> rfl

theorem vblankStep_eq (st : State) :
    st.vblankStep = st.setPpu { st.ppu with
      verticalBlank := if st.ppu.scanline = 241 ∧ st.ppu.dot = 1 then true else st.ppu.verticalBlank
      nmiPending := if st.ppu.scanline = 241 ∧ st.ppu.dot = 1 then st.ppu.nmiPending || st.ppu.enableNmi
        else st.ppu.nmiPending } := by
  unfold State.vblankStep; split <;> rfl

/-- The dot's effect on the PPU before the counters advance: only these fields can differ. -/
def Ppu.DotFrame (p q : Ppu) : Prop :=
  q = { p with
    verticalBlank := q.verticalBlank, v := q.v, bgNextTileId := q.bgNextTileId
    bgNextTileAttrib := q.bgNextTileAttrib, bgNextTileLsb := q.bgNextTileLsb, bgNextTileMsb := q.bgNextTileMsb
    bgShifterPatternLo := q.bgShifterPatternLo, bgShifterPatternHi := q.bgShifterPatternHi
    bgShifterAttribLo := q.bgShifterAttribLo, bgShifterAttribHi := q.bgShifterAttribHi
    nmiPending := q.nmiPending, fb := q.fb }

theorem Ppu.DotFrame.trans {p q r : Ppu} (h : Ppu.DotFrame p q) (h' : Ppu.DotFrame q r) : Ppu.DotFrame p r := by
  unfold Ppu.DotFrame at *; rw [h', h]

/-- `t` is `s` with PPU fields of the frame changed. -/
def DotStep (s t : State) : Prop := t = s.setPpu t.ppu ∧ Ppu.DotFrame s.ppu t.ppu

theorem DotStep.refl (s : State) : DotStep s s := ⟨rfl, rfl⟩
theorem DotStep.trans {s t u : State} (h : DotStep s t) (h' : DotStep t u) : DotStep s u :=
  ⟨by rw [h'.1, h.1]; rfl, h.2.trans h'.2⟩
theorem DotStep.of_eq {s t : State} {p : Ppu} (h : t = s.setPpu p) (hp : Ppu.DotFrame s.ppu p) : DotStep s t := by
  subst h; exact ⟨rfl, hp⟩

theorem dot_clearVblankStep (s : State) : DotStep s s.clearVblankStep := .of_eq (clearVblankStep_eq s) rfl
theorem dot_earlyShift (s : State) : DotStep s s.earlyShift := by
  rw [earlyShift_eq]; split
  · exact ⟨rfl, rfl⟩
  · exact .refl s
theorem dot_fetchAction (s : State) : DotStep s s.fetchAction := .of_eq (fetchAction_eq s) rfl
theorem dot_fetchStep (s : State) : DotStep s s.fetchStep := by
  unfold State.fetchStep; split
  · exact (dot_earlyShift s).trans (dot_fetchAction _)
  · exact .refl s
theorem dot_incrementYStep (s : State) : DotStep s s.incrementYStep := .of_eq (incrementYStep_eq s) rfl
theorem dot_transferXStep (s : State) : DotStep s s.transferXStep := .of_eq (transferXStep_eq s) rfl
theorem dot_transferYStep (s : State) : DotStep s s.transferYStep := .of_eq (transferYStep_eq s) rfl
theorem dot_regionStep (s : State) : DotStep s s.regionStep := by
  unfold State.regionStep; split
  · exact (dot_clearVblankStep s).trans ((dot_fetchStep _).trans ((dot_incrementYStep _).trans
      ((dot_transferXStep _).trans (dot_transferYStep _))))
  · exact .refl s
theorem dot_vblankStep (s : State) : DotStep s s.vblankStep := by
  unfold State.vblankStep; split
  · exact ⟨rfl, rfl⟩
  · exact .refl s
theorem dot_compositeStep (s : State) : DotStep s s.compositeStep := by
  rw [compositeStep_eq]; split <;> exact ⟨rfl, rfl⟩

/-- A dot, up to its counters. -/
theorem dot_before_counters (s : State) : DotStep s s.regionStep.vblankStep.compositeStep :=
  (dot_regionStep s).trans ((dot_vblankStep _).trans (dot_compositeStep _))

/-- The counters and `frameComplete` are all that the end of a dot changes. -/
theorem advanceCounters_frame (p : Ppu) :
    p.advanceCounters = { p with
      scanline := p.advanceCounters.scanline, dot := p.advanceCounters.dot
      frameComplete := p.advanceCounters.frameComplete } := by
  unfold Ppu.advanceCounters; split
  · split <;> rfl
  · rfl

/-- A dot changes the PPU only. -/
theorem ppuClock_state (s : State) : s.ppuClock = s.setPpu s.ppuClock.ppu := by
  unfold State.ppuClock
  simp only []
  rw [(dot_before_counters s).1]; rfl

/-- A field of the frame's complement that the counters do not touch is kept over a dot. -/
theorem ppuClock_keeps {α : Type} (f : Ppu → α) (hf : ∀ p q, Ppu.DotFrame p q → f q = f p)
    (hc : ∀ p, f p.advanceCounters = f p) (s : State) : f s.ppuClock.ppu = f s.ppu := by
  unfold State.ppuClock
  simp only [setPpu_ppu]
  rw [hc, hf _ _ (dot_before_counters s).2]

theorem advanceCounters_keeps {α : Type} (f : Ppu → α)
    (hf : ∀ (p : Ppu) a b c, f { p with scanline := a, dot := b, frameComplete := c } = f p) (p : Ppu) :
    f p.advanceCounters = f p := by
  rw [advanceCounters_frame]; exact hf p _ _ _

@[simp] theorem ppuClock_cpu (s : State) : s.ppuClock.cpu = s.cpu := by rw [ppuClock_state]; rfl
@[simp] theorem ppuClock_cfg (s : State) : s.ppuClock.cfg = s.cfg := by rw [ppuClock_state]; rfl
@[simp] theorem ppuClock_ram (s : State) : s.ppuClock.ram = s.ram := by rw [ppuClock_state]; rfl
@[simp] theorem ppuClock_sysCounter (s : State) : s.ppuClock.sysCounter = s.sysCounter := by
  rw [ppuClock_state]; rfl
@[simp] theorem ppuClock_prg (s : State) : s.ppuClock.prg = s.prg := by rw [ppuClock_state]; rfl
@[simp] theorem ppuClock_chr (s : State) : s.ppuClock.chr = s.chr := by rw [ppuClock_state]; rfl

@[simp] theorem ppuClock_ctrl (s : State) : s.ppuClock.ppu.ctrl = s.ppu.ctrl :=
  ppuClock_keeps Ppu.ctrl (fun _ _ h => by rw [h]) (advanceCounters_keeps _ fun _ _ _ _ => rfl) s
@[simp] theorem ppuClock_mask (s : State) : s.ppuClock.ppu.mask = s.ppu.mask :=
  ppuClock_keeps Ppu.mask (fun _ _ h => by rw [h]) (advanceCounters_keeps _ fun _ _ _ _ => rfl) s
@[simp] theorem ppuClock_t (s : State) : s.ppuClock.ppu.t = s.ppu.t :=
  ppuClock_keeps Ppu.t (fun _ _ h => by rw [h]) (advanceCounters_keeps _ fun _ _ _ _ => rfl) s
@[simp] theorem ppuClock_fineX (s : State) : s.ppuClock.ppu.fineX = s.ppu.fineX :=
  ppuClock_keeps Ppu.fineX (fun _ _ h => by rw [h]) (advanceCounters_keeps _ fun _ _ _ _ => rfl) s
@[simp] theorem ppuClock_w (s : State) : s.ppuClock.ppu.w = s.ppu.w :=
  ppuClock_keeps Ppu.w (fun _ _ h => by rw [h]) (advanceCounters_keeps _ fun _ _ _ _ => rfl) s
@[simp] theorem ppuClock_dataBuf (s : State) : s.ppuClock.ppu.dataBuf = s.ppu.dataBuf :=
  ppuClock_keeps Ppu.dataBuf (fun _ _ h => by rw [h]) (advanceCounters_keeps _ fun _ _ _ _ => rfl) s
@[simp] theorem ppuClock_nt (s : State) : s.ppuClock.ppu.nt = s.ppu.nt :=
  ppuClock_keeps Ppu.nt (fun _ _ h => by rw [h]) (advanceCounters_keeps _ fun _ _ _ _ => rfl) s
@[simp] theorem ppuClock_pal (s : State) : s.ppuClock.ppu.pal = s.ppu.pal :=
  ppuClock_keeps Ppu.pal (fun _ _ h => by rw [h]) (advanceCounters_keeps _ fun _ _ _ _ => rfl) s
@[simp] theorem ppuClock_spriteZeroHit (s : State) : s.ppuClock.ppu.spriteZeroHit = s.ppu.spriteZeroHit :=
  ppuClock_keeps Ppu.spriteZeroHit (fun _ _ h => by rw [h]) (advanceCounters_keeps _ fun _ _ _ _ => rfl) s
@[simp] theorem ppuClock_spriteOverflow (s : State) : s.ppuClock.ppu.spriteOverflow = s.ppu.spriteOverflow :=
  ppuClock_keeps Ppu.spriteOverflow (fun _ _ h => by rw [h]) (advanceCounters_keeps _ fun _ _ _ _ => rfl) s

end Sys2Proof.Machine
end

