-- ==== Sys2Proof/Laws/Invariant.lean ====
section
/-! SUPPORT. Every operation of the machine keeps the memories in canonical form and in their bounds. -/

namespace Sys2Proof.Machine

/-- The memories of `t` are those of `s`, and so is the number of program banks. -/
theorem MemoriesOk.congr {s t : State} (h : MemoriesOk s) (hc : t.cfg.prgBanks = s.cfg.prgBanks) (h1 : t.ram = s.ram)
    (h2 : t.prg = s.prg) (h3 : t.chr = s.chr) (h4 : t.ppu.nt = s.ppu.nt) (h5 : t.ppu.pal = s.ppu.pal)
    (h6 : t.ppu.fb = s.ppu.fb) : MemoriesOk t := by
  obtain ⟨a, b, c, d, e, f⟩ := h
  exact ⟨by rw [h1]; exact a, by rw [h2, hc]; exact b, by rw [h3]; exact c, by rw [h4]; exact d,
    by rw [h5]; exact e, by rw [h6]; exact f⟩

/-- One cell written, inside the bounds. -/
theorem wf_within_write {w : Nat} (size : Nat) (m : Cells w) (a : Nat) (x : BitVec w) (ha : a < size)
    (h : Cells.wf m = true ∧ Cells.within size m = true) :
    Cells.wf (Cells.write m a x) = true ∧ Cells.within size (Cells.write m a x) = true :=
  ⟨wf_write m a x h.1, within_write size m a x h.2 ha⟩

theorem prgOffset_lt (b : PrgBanks) (a : Addr) : prgOffset b a < prgSize b := by
  cases b <;> simp only [prgOffset, prgSize] <;> omega

theorem MemoriesOk.withCpu {s : State} (h : MemoriesOk s) (c : Cpu) : MemoriesOk (s.withCpu c) :=
  h.congr rfl rfl rfl rfl rfl rfl rfl

theorem MemoriesOk.busRead {s : State} (h : MemoriesOk s) (a : Addr) : MemoriesOk (s.busRead a).2 :=
  h.congr (by simp) (by simp) (by simp) (by simp) (by simp) (by simp) (by simp)

theorem MemoriesOk.ppuWrite {s : State} (h : MemoriesOk s) (a : Addr) (d : Byte) : MemoriesOk (s.ppuWrite a d) := by
  obtain ⟨h1, h2, h3, h4, h5, h6⟩ := h
  rcases ppuWrite_cases s a d with ⟨off, ho, _, _, e⟩ | ⟨_, _, e⟩ | ⟨_, _, e⟩ | ⟨_, e⟩ <;> rw [e]
  · exact ⟨h1, h2, wf_within_write _ _ _ _ (by unfold chrSize; omega) h3, h4, h5, h6⟩
  · exact ⟨h1, h2, h3, h4, h5, h6⟩
  · exact ⟨h1, h2, h3, wf_within_write _ _ _ _ (ntIndex_lt _ _) h4, h5, h6⟩
  · exact ⟨h1, h2, h3, h4, wf_within_write _ _ _ _ (palIndex_lt _) h5, h6⟩

theorem MemoriesOk.ppuPortWrite {s : State} (h : MemoriesOk s) (p : BitVec 3) (d : Byte) :
    MemoriesOk (s.ppuPortWrite p d) := by
  rcases ppuPortWrite_cases s p d with ⟨_, e⟩ | ⟨_, _, _, _, _, _, _, e⟩ <;> rw [e]
  · exact (h.ppuWrite s.ppu.vAddr d).congr rfl rfl rfl rfl rfl rfl rfl
  · exact h.congr rfl rfl rfl rfl rfl rfl rfl

theorem MemoriesOk.busWrite {s : State} (h : MemoriesOk s) (a : Addr) (d : Byte) : MemoriesOk (s.busWrite a d) := by
  rcases busWrite_cases s a d with ⟨_, _, e⟩ | ⟨_, e⟩ | ⟨_, e⟩ | ⟨_, e⟩ <;> rw [e]
  · exact ⟨h.ram, wf_within_write _ _ _ _ (prgOffset_lt _ _) h.prg, h.chr, h.nt, h.pal, h.fb⟩
  · exact ⟨wf_within_write _ _ _ _ (by unfold ramIndex; omega) h.ram, h.prg, h.chr, h.nt, h.pal, h.fb⟩
  · exact h.ppuPortWrite _ _
  · exact h

/-- An instruction, an interrupt entry, a reset. -/
theorem Effects.memories {s t : State} (h : Effects s t) (hs : MemoriesOk s) : MemoriesOk t :=
  h.keeps MemoriesOk hs (fun _ c q => q.withCpu c) (fun _ a q => q.busRead a) (fun _ a d q => q.busWrite a d)

/-- A dot writes at most one cell of the framebuffer. -/
theorem fbAfter_cases (s : State) :
    s.fbAfter = s.ppu.fb ∨ ∃ k c, k < 61440 ∧ s.fbAfter = Cells.write s.ppu.fb k c := by
  unfold State.fbAfter
  split
  · right; exact ⟨_, _, by unfold fbIndex; omega, rfl⟩
  · left; rfl

/-- Before the compositor a dot does not reach the framebuffer. -/
theorem regionStep_fb (s : State) : s.regionStep.vblankStep.ppu.fb = s.ppu.fb := by
  have f (s : State) : s.fetchStep.ppu.fb = s.ppu.fb := by
    unfold State.fetchStep; split
    · rw [fetchAction_eq, earlyShift_eq]; split <;> rfl
    · rfl
  rw [vblankStep_eq]
  unfold State.regionStep
  simp only [setPpu_ppu]
  split
  · rw [transferYStep_eq, transferXStep_eq, incrementYStep_eq]
    simp only [setPpu_ppu, f, clearVblankStep_eq]
  · rfl

/-- A dot. -/
theorem MemoriesOk.ppuClock {s : State} (h : MemoriesOk s) : MemoriesOk s.ppuClock := by
  have e : s.ppuClock.ppu.fb = s.regionStep.vblankStep.fbAfter := by
    unfold State.ppuClock
    simp only [setPpu_ppu]
    rw [advanceCounters_keeps Ppu.fb (fun _ _ _ _ => rfl), compositeStep_eq]
    split <;> rfl
  obtain ⟨h1, h2, h3, h4, h5, h6⟩ := h
  refine ⟨by simpa using h1, by simpa using h2, by simpa using h3, by simpa using h4, by simpa using h5, ?_⟩
  rcases fbAfter_cases s.regionStep.vblankStep with e' | ⟨k, c, hk, e'⟩ <;> rw [e, e', regionStep_fb]
  · exact h6
  · exact wf_within_write _ _ _ _ hk h6

end Sys2Proof.Machine
end

