-- ==== Sys2Proof/Laws/Words.lean ====
section
/-! SUPPORT. Bytes and words as numbers. -/

namespace Sys2Proof

theorem wordOf_toNat (lo hi : Byte) : (wordOf lo hi).toNat = hi.toNat * 256 + lo.toNat := by
  unfold wordOf
  rw [BitVec.toNat_append, ← Nat.shiftLeft_add_eq_or_of_lt lo.isLt, Nat.shiftLeft_eq]

theorem lowByte_toNat (w : Addr) : (lowByte w).toNat = w.toNat % 256 := by
  simp [lowByte]

theorem highByte_toNat (w : Addr) : (highByte w).toNat = w.toNat / 256 := by
  have := w.isLt
  simp only [highByte, BitVec.truncate_eq_setWidth, BitVec.toNat_setWidth, BitVec.toNat_ushiftRight,
    Nat.shiftRight_eq_div_pow]
  omega

/-- A word is made of its two bytes. -/
@[simp] theorem wordOf_low_high (w : Addr) : wordOf (lowByte w) (highByte w) = w := by
  apply BitVec.eq_of_toNat_eq
  rw [wordOf_toNat, lowByte_toNat, highByte_toNat]
  omega

@[simp] theorem lowByte_wordOf (lo hi : Byte) : lowByte (wordOf lo hi) = lo := by
  apply BitVec.eq_of_toNat_eq
  rw [lowByte_toNat, wordOf_toNat]
  have := lo.isLt; omega

@[simp] theorem highByte_wordOf (lo hi : Byte) : highByte (wordOf lo hi) = hi := by
  apply BitVec.eq_of_toNat_eq
  rw [highByte_toNat, wordOf_toNat]
  have := lo.isLt; omega

end Sys2Proof

namespace Sys2Proof.Machine

theorem stackAddr_toNat (s : Byte) : (stackAddr s).toNat = 256 + s.toNat := by
  unfold stackAddr; rw [wordOf_toNat]; rfl

theorem zeroPage_toNat (b : Byte) : (zeroPage b).toNat = b.toNat := by
  have := b.isLt
  simp only [zeroPage, BitVec.truncate_eq_setWidth, BitVec.toNat_setWidth]; omega

theorem indexed_toNat (w : Addr) (r : Byte) : (indexed w r).toNat = (w.toNat + r.toNat) % 65536 := by
  have := r.isLt
  simp only [indexed, BitVec.truncate_eq_setWidth, BitVec.toNat_add, BitVec.toNat_setWidth]
  omega

/-- An indexed address leaves the page of its base exactly when the low byte and the index carry. -/
theorem crosses_indexed (w : Addr) (r : Byte) :
    crosses w (indexed w r) = decide (255 < w.toNat % 256 + r.toNat) := by
  have hw := w.isLt
  have hr := r.isLt
  unfold crosses
  apply decide_eq_decide.2
  rw [ne_eq, ← BitVec.toNat_inj, highByte_toNat, highByte_toNat, indexed_toNat]
  omega

/-- Two addresses lie on one page when their high bytes agree. -/
theorem crosses_iff (a b : Addr) : crosses a b = true ↔ b.toNat / 256 ≠ a.toNat / 256 := by
  unfold crosses
  rw [decide_eq_true_iff, ne_eq, ← BitVec.toNat_inj, highByte_toNat, highByte_toNat]

theorem portOf_toNat (a : Addr) : (portOf a).toNat = a.toNat % 8 := by
  simp [portOf]

/-- Stack and zero page lie in work RAM. -/
theorem stackAddr_lt (s : Byte) : (stackAddr s).toNat < 0x2000 := by
  have := s.isLt; rw [stackAddr_toNat]; omega

theorem zeroPage_lt (b : Byte) : (zeroPage b).toNat < 0x2000 := by
  have := b.isLt; rw [zeroPage_toNat]; omega

end Sys2Proof.Machine
end

