-- ==== Sys2Proof/Laws/Operands.lean ====
section
/-! SUPPORT. What the shared operations of the instructions do: addressing modes, `Fetch()`, the stack, the end
of an instruction. A caller cites these and never unfolds the operation. -/

namespace Sys2Proof.Machine

/-! ## Addressing modes -/

/-- An addressing mode writes `ea`, `rel`, `fetched` and no other register. -/
theorem addrMode_cpu (o : Operand) (s : State) :
    (addrMode o s).2.cpu = { s.cpu with
      ea := (addrMode o s).2.cpu.ea, rel := (addrMode o s).2.cpu.rel
      fetched := (addrMode o s).2.cpu.fetched } := by
  cases o
  case ind p => simp only [addrMode, setEa_eq, withCpu_cpu, busRead_cpu]
  case izx b => simp only [addrMode, State.zeroPagePointer, setEa_eq, withCpu_cpu, busRead_cpu]
  case izy b => simp only [addrMode, State.zeroPagePointer, setEa_eq, withCpu_cpu, busRead_cpu]
  all_goals rfl

/-- A zero-page pointer is two reads of work RAM: the state is kept. -/
theorem zeroPagePointer_eq (s : State) (b : Byte) :
    s.zeroPagePointer b = (wordOf (s.busRead (zeroPage b)).1 (s.busRead (zeroPage (b + 1))).1, s) := by
  have h (x : Byte) : (s.busRead (zeroPage x)).2 = s := by
    apply busRead_of_not_port
    have := zeroPage_lt x; omega
  simp only [State.zeroPagePointer, h]

/-- Outside mode IND an addressing mode changes CPU registers only. -/
theorem addrMode_withCpu (o : Operand) (s : State) (h : ∀ p, o ≠ .ind p) :
    (addrMode o s).2 = s.withCpu (addrMode o s).2.cpu := by
  cases o
  case ind p => exact absurd rfl (h p)
  case izx b => simp only [addrMode, zeroPagePointer_eq]; rfl
  case izy b => simp only [addrMode, zeroPagePointer_eq]; rfl
  all_goals rfl

/-- Outside mode IND an addressing mode keeps the PPU. -/
theorem addrMode_ppu (o : Operand) (s : State) (h : ∀ p, o ≠ .ind p) : (addrMode o s).2.ppu = s.ppu := by
  rw [addrMode_withCpu o s h]; rfl

@[simp] theorem addrMode_a (o : Operand) (s : State) : (addrMode o s).2.cpu.a = s.cpu.a := by
  rw [addrMode_cpu]
@[simp] theorem addrMode_x (o : Operand) (s : State) : (addrMode o s).2.cpu.x = s.cpu.x := by
  rw [addrMode_cpu]
@[simp] theorem addrMode_y (o : Operand) (s : State) : (addrMode o s).2.cpu.y = s.cpu.y := by
  rw [addrMode_cpu]
@[simp] theorem addrMode_s (o : Operand) (s : State) : (addrMode o s).2.cpu.s = s.cpu.s := by
  rw [addrMode_cpu]
@[simp] theorem addrMode_pc (o : Operand) (s : State) : (addrMode o s).2.cpu.pc = s.cpu.pc := by
  rw [addrMode_cpu]
@[simp] theorem addrMode_p (o : Operand) (s : State) : (addrMode o s).2.cpu.p = s.cpu.p := by
  rw [addrMode_cpu]
@[simp] theorem addrMode_countdown (o : Operand) (s : State) : (addrMode o s).2.cpu.countdown = s.cpu.countdown := by
  rw [addrMode_cpu]
@[simp] theorem addrMode_opcode (o : Operand) (s : State) : (addrMode o s).2.cpu.opcode = s.cpu.opcode := by
  rw [addrMode_cpu]
@[simp] theorem addrMode_mode (o : Operand) (s : State) : (addrMode o s).2.cpu.mode = s.cpu.mode := by
  rw [addrMode_cpu]
@[simp] theorem addrMode_clockCount (o : Operand) (s : State) : (addrMode o s).2.cpu.clockCount = s.cpu.clockCount := by
  rw [addrMode_cpu]
@[simp] theorem addrMode_cfg (o : Operand) (s : State) : (addrMode o s).2.cfg = s.cfg := by
  by_cases h : ∀ p, o ≠ .ind p
  · rw [addrMode_withCpu o s h]; rfl
  · simp only [not_forall, not_not] at h
    obtain ⟨p, rfl⟩ := h
    simp only [addrMode, setEa_eq, withCpu_cfg, busRead_cfg]
@[simp] theorem addrMode_ram (o : Operand) (s : State) : (addrMode o s).2.ram = s.ram := by
  by_cases h : ∀ p, o ≠ .ind p
  · rw [addrMode_withCpu o s h]; rfl
  · simp only [not_forall, not_not] at h
    obtain ⟨p, rfl⟩ := h
    simp only [addrMode, setEa_eq, withCpu_ram, busRead_ram]
@[simp] theorem addrMode_sysCounter (o : Operand) (s : State) : (addrMode o s).2.sysCounter = s.sysCounter := by
  by_cases h : ∀ p, o ≠ .ind p
  · rw [addrMode_withCpu o s h]; rfl
  · simp only [not_forall, not_not] at h
    obtain ⟨p, rfl⟩ := h
    simp only [addrMode, setEa_eq, withCpu_sysCounter, busRead_sysCounter]
@[simp] theorem addrMode_prg (o : Operand) (s : State) : (addrMode o s).2.prg = s.prg := by
  by_cases h : ∀ p, o ≠ .ind p
  · rw [addrMode_withCpu o s h]; rfl
  · simp only [not_forall, not_not] at h
    obtain ⟨p, rfl⟩ := h
    simp only [addrMode, setEa_eq, withCpu_prg, busRead_prg]
@[simp] theorem addrMode_chr (o : Operand) (s : State) : (addrMode o s).2.chr = s.chr := by
  by_cases h : ∀ p, o ≠ .ind p
  · rw [addrMode_withCpu o s h]; rfl
  · simp only [not_forall, not_not] at h
    obtain ⟨p, rfl⟩ := h
    simp only [addrMode, setEa_eq, withCpu_chr, busRead_chr]
@[simp] theorem addrMode_nt (o : Operand) (s : State) : (addrMode o s).2.ppu.nt = s.ppu.nt := by
  by_cases h : ∀ p, o ≠ .ind p
  · rw [addrMode_withCpu o s h]; rfl
  · simp only [not_forall, not_not] at h
    obtain ⟨p, rfl⟩ := h
    simp only [addrMode, setEa_eq, withCpu_ppu, busRead_nt]
@[simp] theorem addrMode_pal (o : Operand) (s : State) : (addrMode o s).2.ppu.pal = s.ppu.pal := by
  by_cases h : ∀ p, o ≠ .ind p
  · rw [addrMode_withCpu o s h]; rfl
  · simp only [not_forall, not_not] at h
    obtain ⟨p, rfl⟩ := h
    simp only [addrMode, setEa_eq, withCpu_ppu, busRead_pal]
@[simp] theorem addrMode_fb (o : Operand) (s : State) : (addrMode o s).2.ppu.fb = s.ppu.fb := by
  by_cases h : ∀ p, o ≠ .ind p
  · rw [addrMode_withCpu o s h]; rfl
  · simp only [not_forall, not_not] at h
    obtain ⟨p, rfl⟩ := h
    simp only [addrMode, setEa_eq, withCpu_ppu, busRead_fb]
@[simp] theorem addrMode_flag (o : Operand) (s : State) (f : Flag) : (addrMode o s).2.flag f = s.flag f := by
  unfold State.flag; rw [addrMode_p]

/-! ## Fetch -/

/-- `Fetch()` reads the bus at `ea`, except in modes IMP and IMM. -/
theorem fetch_of_memory (o : Operand) (s : State) (h1 : o ≠ .imp) (h2 : ∀ b, o ≠ .imm b) :
    fetch o s = ((s.busRead s.cpu.ea).1, (s.busRead s.cpu.ea).2.setFetched (s.busRead s.cpu.ea).1) := by
  cases o
  case imp => exact absurd rfl h1
  case imm b => exact absurd rfl (h2 b)
  all_goals rfl

/-- `Fetch()` writes `fetched` and no other register. -/
theorem fetch_cpu (o : Operand) (s : State) : (fetch o s).2.cpu = { s.cpu with fetched := (fetch o s).1 } := by
  cases o
  case imp => rfl
  case imm b => rfl
  all_goals simp only [fetch, setFetched_eq, withCpu_cpu, busRead_cpu]

@[simp] theorem fetch_a (o : Operand) (s : State) : (fetch o s).2.cpu.a = s.cpu.a := by
  rw [fetch_cpu]
@[simp] theorem fetch_x (o : Operand) (s : State) : (fetch o s).2.cpu.x = s.cpu.x := by
  rw [fetch_cpu]
@[simp] theorem fetch_y (o : Operand) (s : State) : (fetch o s).2.cpu.y = s.cpu.y := by
  rw [fetch_cpu]
@[simp] theorem fetch_s (o : Operand) (s : State) : (fetch o s).2.cpu.s = s.cpu.s := by
  rw [fetch_cpu]
@[simp] theorem fetch_pc (o : Operand) (s : State) : (fetch o s).2.cpu.pc = s.cpu.pc := by
  rw [fetch_cpu]
@[simp] theorem fetch_p (o : Operand) (s : State) : (fetch o s).2.cpu.p = s.cpu.p := by
  rw [fetch_cpu]
@[simp] theorem fetch_countdown (o : Operand) (s : State) : (fetch o s).2.cpu.countdown = s.cpu.countdown := by
  rw [fetch_cpu]
@[simp] theorem fetch_opcode (o : Operand) (s : State) : (fetch o s).2.cpu.opcode = s.cpu.opcode := by
  rw [fetch_cpu]
@[simp] theorem fetch_mode (o : Operand) (s : State) : (fetch o s).2.cpu.mode = s.cpu.mode := by
  rw [fetch_cpu]
@[simp] theorem fetch_clockCount (o : Operand) (s : State) : (fetch o s).2.cpu.clockCount = s.cpu.clockCount := by
  rw [fetch_cpu]
@[simp] theorem fetch_ea (o : Operand) (s : State) : (fetch o s).2.cpu.ea = s.cpu.ea := by
  rw [fetch_cpu]
@[simp] theorem fetch_rel (o : Operand) (s : State) : (fetch o s).2.cpu.rel = s.cpu.rel := by
  rw [fetch_cpu]
@[simp] theorem fetch_cfg (o : Operand) (s : State) : (fetch o s).2.cfg = s.cfg := by
  cases o
  case imp => rfl
  case imm b => rfl
  all_goals simp only [fetch, setFetched_eq, withCpu_cfg, busRead_cfg]
@[simp] theorem fetch_ram (o : Operand) (s : State) : (fetch o s).2.ram = s.ram := by
  cases o
  case imp => rfl
  case imm b => rfl
  all_goals simp only [fetch, setFetched_eq, withCpu_ram, busRead_ram]
@[simp] theorem fetch_sysCounter (o : Operand) (s : State) : (fetch o s).2.sysCounter = s.sysCounter := by
  cases o
  case imp => rfl
  case imm b => rfl
  all_goals simp only [fetch, setFetched_eq, withCpu_sysCounter, busRead_sysCounter]
@[simp] theorem fetch_prg (o : Operand) (s : State) : (fetch o s).2.prg = s.prg := by
  cases o
  case imp => rfl
  case imm b => rfl
  all_goals simp only [fetch, setFetched_eq, withCpu_prg, busRead_prg]
@[simp] theorem fetch_chr (o : Operand) (s : State) : (fetch o s).2.chr = s.chr := by
  cases o
  case imp => rfl
  case imm b => rfl
  all_goals simp only [fetch, setFetched_eq, withCpu_chr, busRead_chr]
@[simp] theorem fetch_nt (o : Operand) (s : State) : (fetch o s).2.ppu.nt = s.ppu.nt := by
  cases o
  case imp => rfl
  case imm b => rfl
  all_goals simp only [fetch, setFetched_eq, withCpu_ppu, busRead_nt]
@[simp] theorem fetch_pal (o : Operand) (s : State) : (fetch o s).2.ppu.pal = s.ppu.pal := by
  cases o
  case imp => rfl
  case imm b => rfl
  all_goals simp only [fetch, setFetched_eq, withCpu_ppu, busRead_pal]
@[simp] theorem fetch_fb (o : Operand) (s : State) : (fetch o s).2.ppu.fb = s.ppu.fb := by
  cases o
  case imp => rfl
  case imm b => rfl
  all_goals simp only [fetch, setFetched_eq, withCpu_ppu, busRead_fb]
@[simp] theorem fetch_flag (o : Operand) (s : State) (f : Flag) : (fetch o s).2.flag f = s.flag f := by
  unfold State.flag; rw [fetch_p]

/-! ## The end of an instruction -/

theorem complete_eq (base : Nat) (s1 : Bool) (r : OpResult) :
    complete base s1 r = r.state.withCpu { r.state.cpu with
      countdown := base + carryValue (s1 && r.s2) + r.b, p := withFlag .U true r.state.cpu.p } := rfl

@[simp] theorem complete_countdown (base : Nat) (s1 : Bool) (r : OpResult) :
    (complete base s1 r).cpu.countdown = base + carryValue (s1 && r.s2) + r.b := by rw [complete_eq]; rfl
@[simp] theorem complete_flag (base : Nat) (s1 : Bool) (r : OpResult) (f : Flag) :
    (complete base s1 r).flag f = if f = .U then true else r.state.flag f := by
  rw [complete]
  simp only [flag_setFlag, flag_setCountdown]
@[simp] theorem complete_a (base : Nat) (s1 : Bool) (r : OpResult) :
    (complete base s1 r).cpu.a = r.state.cpu.a := by rw [complete_eq]; rfl
@[simp] theorem complete_x (base : Nat) (s1 : Bool) (r : OpResult) :
    (complete base s1 r).cpu.x = r.state.cpu.x := by rw [complete_eq]; rfl
@[simp] theorem complete_y (base : Nat) (s1 : Bool) (r : OpResult) :
    (complete base s1 r).cpu.y = r.state.cpu.y := by rw [complete_eq]; rfl
@[simp] theorem complete_s (base : Nat) (s1 : Bool) (r : OpResult) :
    (complete base s1 r).cpu.s = r.state.cpu.s := by rw [complete_eq]; rfl
@[simp] theorem complete_pc (base : Nat) (s1 : Bool) (r : OpResult) :
    (complete base s1 r).cpu.pc = r.state.cpu.pc := by rw [complete_eq]; rfl
@[simp] theorem complete_opcode (base : Nat) (s1 : Bool) (r : OpResult) :
    (complete base s1 r).cpu.opcode = r.state.cpu.opcode := by rw [complete_eq]; rfl
@[simp] theorem complete_mode (base : Nat) (s1 : Bool) (r : OpResult) :
    (complete base s1 r).cpu.mode = r.state.cpu.mode := by rw [complete_eq]; rfl
@[simp] theorem complete_ea (base : Nat) (s1 : Bool) (r : OpResult) :
    (complete base s1 r).cpu.ea = r.state.cpu.ea := by rw [complete_eq]; rfl
@[simp] theorem complete_rel (base : Nat) (s1 : Bool) (r : OpResult) :
    (complete base s1 r).cpu.rel = r.state.cpu.rel := by rw [complete_eq]; rfl
@[simp] theorem complete_fetched (base : Nat) (s1 : Bool) (r : OpResult) :
    (complete base s1 r).cpu.fetched = r.state.cpu.fetched := by rw [complete_eq]; rfl
@[simp] theorem complete_clockCount (base : Nat) (s1 : Bool) (r : OpResult) :
    (complete base s1 r).cpu.clockCount = r.state.cpu.clockCount := by rw [complete_eq]; rfl
@[simp] theorem complete_cfg (base : Nat) (s1 : Bool) (r : OpResult) :
    (complete base s1 r).cfg = r.state.cfg := by rw [complete_eq]; rfl
@[simp] theorem complete_ram (base : Nat) (s1 : Bool) (r : OpResult) :
    (complete base s1 r).ram = r.state.ram := by rw [complete_eq]; rfl
@[simp] theorem complete_sysCounter (base : Nat) (s1 : Bool) (r : OpResult) :
    (complete base s1 r).sysCounter = r.state.sysCounter := by rw [complete_eq]; rfl
@[simp] theorem complete_ppu (base : Nat) (s1 : Bool) (r : OpResult) :
    (complete base s1 r).ppu = r.state.ppu := by rw [complete_eq]; rfl
@[simp] theorem complete_prg (base : Nat) (s1 : Bool) (r : OpResult) :
    (complete base s1 r).prg = r.state.prg := by rw [complete_eq]; rfl
@[simp] theorem complete_chr (base : Nat) (s1 : Bool) (r : OpResult) :
    (complete base s1 r).chr = r.state.chr := by rw [complete_eq]; rfl

@[simp] theorem quiet_state (s : State) : (quiet s).state = s := rfl
@[simp] theorem quiet_s2 (s : State) : (quiet s).s2 = false := rfl
@[simp] theorem quiet_b (s : State) : (quiet s).b = 0 := rfl
@[simp] theorem signalling_state (s : State) : (signalling s).state = s := rfl
@[simp] theorem signalling_s2 (s : State) : (signalling s).s2 = true := rfl
@[simp] theorem signalling_b (s : State) : (signalling s).b = 0 := rfl

/-! ## The stack: page 1 lies in work RAM -/

/-- A write to the stack page is a write of one cell of work RAM. -/
theorem busWrite_stack (s : State) (k v : Byte) :
    s.busWrite (stackAddr k) v = s.setRam (Cells.write s.ram (256 + k.toNat) v) := by
  have hk := k.isLt
  have ha := stackAddr_toNat k
  rw [busWrite_eq, if_neg (by omega), if_pos (by omega)]
  have : ramIndex (stackAddr k) = 256 + k.toNat := by unfold ramIndex; omega
  rw [this]

/-- A read of the stack page is a read of one cell of work RAM and keeps the state. -/
theorem busRead_stack (s : State) (k : Byte) :
    s.busRead (stackAddr k) = (Cells.read s.ram (256 + k.toNat), s) := by
  have hk := k.isLt
  have ha := stackAddr_toNat k
  rw [busRead_eq, if_neg (by omega), if_pos (by omega)]
  have : ramIndex (stackAddr k) = 256 + k.toNat := by unfold ramIndex; omega
  rw [this]

/-- `Push(v)` (R23). -/
theorem push_eq (s : State) (v : Byte) :
    s.push v = (s.setRam (Cells.write s.ram (256 + s.cpu.s.toNat) v)).setS (s.cpu.s - 1) := by
  simp only [State.push, busWrite_stack]; rfl

/-- `Pull()` (R23). -/
theorem pull_eq (s : State) : s.pull = (Cells.read s.ram (256 + (s.cpu.s + 1).toNat), s.setS (s.cpu.s + 1)) := by
  simp only [State.pull, busRead_stack]; rfl

/-- A word pushed: high byte at the pointer, low byte below. -/
theorem push16_eq (s : State) (w : Addr) :
    s.push16 w = (s.setRam (Cells.write (Cells.write s.ram (256 + s.cpu.s.toNat) (highByte w))
      (256 + (s.cpu.s - 1).toNat) (lowByte w))).setS (s.cpu.s - 1 - 1) := by
  simp only [State.push16, push_eq]; rfl

/-- A word pulled: low byte first. -/
theorem pull16_eq (s : State) :
    s.pull16 = (wordOf (Cells.read s.ram (256 + (s.cpu.s + 1).toNat))
      (Cells.read s.ram (256 + (s.cpu.s + 1 + 1).toNat)), s.setS (s.cpu.s + 1 + 1)) := by
  simp only [State.pull16, pull_eq]; rfl

/-- A word of program ROM at `a`, `a + 1`: no side effect. -/
theorem memRead16_rom (s : State) (a : Addr) (h : 0x8000 ≤ a.toNat) (h' : 0x8000 ≤ (a + 1).toNat) :
    s.memRead16 a = (wordOf (s.busRead a).1 (s.busRead (a + 1)).1, s) := by
  have e : (s.busRead a).2 = s := busRead_of_not_port s a (by omega)
  have e' : (s.busRead (a + 1)).2 = s := busRead_of_not_port s (a + 1) (by omega)
  simp only [State.memRead16, e, e']

/-- `PC` from a word of program ROM. -/
theorem jumpThrough_rom (s : State) (a : Addr) (h : 0x8000 ≤ a.toNat) (h' : 0x8000 ≤ (a + 1).toNat) :
    s.jumpThrough a = s.setPc (wordOf (s.busRead a).1 (s.busRead (a + 1)).1) := by
  simp only [State.jumpThrough, memRead16_rom s a h h']

/-! ## Branches, shifts, BRK -/

/-- A branch not taken does nothing; a taken one writes `ea` and `PC` and reports its cycles (R230). -/
theorem branchIf_eq (c : Bool) (s : State) :
    branchIf c s =
      if c then ⟨(s.setEa (s.cpu.pc + s.cpu.rel)).setPc (s.cpu.pc + s.cpu.rel), false,
        1 + carryValue (crosses s.cpu.pc (s.cpu.pc + s.cpu.rel))⟩
      else quiet s := rfl

/-- A shift in the accumulator form. -/
theorem shiftResult_imp (out : Bool) (r : Byte) (s : State) :
    shiftResult .imp out r s = quiet ((s.setShiftFlags out r).setA r) := rfl

/-- A shift in a memory form. -/
theorem shiftResult_memory (o : Operand) (out : Bool) (r : Byte) (s : State) (h : o ≠ .imp) :
    shiftResult o out r s = quiet ((s.setShiftFlags out r).busWrite s.cpu.ea r) := by
  cases o
  case imp => exact absurd rfl h
  all_goals rfl

/-- BRK's entry, with the vector in program ROM (R262). -/
theorem brkEntry_eq (s : State) :
    s.brkEntry =
      let s1 := (s.setFlag .I true).push16 (s.cpu.pc + brkExtra s.cfg.brkReturnOffset)
      let s2 := (s1.push (pushedWithBreak s1.cpu.p)).setFlag .B false
      s2.setPc (wordOf (s2.busRead irqVector).1 (s2.busRead (irqVector + 1)).1) := by
  simp only [State.brkEntry, jumpThrough_rom _ irqVector (by decide) (by decide)]

/-- Interrupt entry, with the vector in program ROM (R406). -/
theorem interruptEntry_eq (s : State) (v : Addr) (n : Nat) (h : 0x8000 ≤ v.toNat) (h' : 0x8000 ≤ (v + 1).toNat) :
    s.interruptEntry v n =
      let s1 := (((s.push16 s.cpu.pc).setFlag .B false).setFlag .U true).setFlag .I true
      let s2 := s1.push s1.cpu.p
      (s2.setPc (wordOf (s2.busRead v).1 (s2.busRead (v + 1)).1)).setCountdown n := by
  simp only [State.interruptEntry, jumpThrough_rom _ v h h']

end Sys2Proof.Machine
end

