-- ==== Sys2Proof/Laws/PerInstr.lean ====
section
/-! SUPPORT. Statements about every instruction as syntax, one lemma per constructor: how long an encoding is, and
that the opcode byte of an instruction has the instruction's addressing mode in the table. -/

namespace Sys2Proof.Laws

/-- The encoding tables agree with the matrix: each listed byte has the listed mode there (R124). -/
def TableAgrees (es : List Encoding) : Prop :=
  ∀ e ∈ es, ((cellOf officialMatrix e.opcode).map (·.mode)) = some e.mode

theorem mode_of_cell (c : Config) (op : Byte) (m : Mode)
    (h : ((cellOf officialMatrix op).map (·.mode)) = some m) : (descriptor c op).mode = m := by
  unfold descriptor
  cases hc : cellOf officialMatrix op with
  | some d => rw [hc] at h; simpa using h
  | none => rw [hc] at h; simp at h

/-- The byte of an operand form has the form's mode. -/
theorem mode_of_form (c : Config) (es : List Encoding) (hes : TableAgrees es) (o : Operand) (op : Byte)
    (h : formOpcode es o = some op) : (descriptor c op).mode = o.mode := by
  unfold formOpcode at h
  split at h
  · simp at h
  · simp only [Option.map_eq_some_iff] at h
    obtain ⟨e, he, rfl⟩ := h
    have hm : e.mode = o.mode := by simpa using List.find?_some he
    rw [← hm]
    exact mode_of_cell c _ _ (hes e (List.mem_of_find?_eq_some he))

/-- The byte of a placeholder has the mode of its table entry. -/
theorem mode_of_placeholder (c : Config) (k : PlaceholderOp) (b : Byte) (o : Operand) (op : Byte)
    (h : (if c.placeholderExists k b o then some b else none) = some op) : (descriptor c op).mode = o.mode := by
  split at h
  · next hx =>
    cases h
    simp only [Config.placeholderExists, Bool.and_eq_true, decide_eq_true_eq] at hx
    obtain ⟨⟨hu, hs⟩, _⟩ := hx
    rw [placeholderShape_eq c b hu] at hs
    have hn := (unofficial_iff b).1 hu
    rw [descriptor_of_no_cell c b (by simpa using hn)]
    exact congrArg Prod.snd hs
  · simp at h

/-- An encoding is an opcode byte and the operand's bytes. -/
theorem length_of_encode (c : Config) (i : Instr) (bs : List Byte) (h : encodeIn c i = some bs) :
    bs.length = 1 + i.operand.mode.operandBytes := by
  simp only [encodeIn, Option.map_eq_some_iff] at h
  obtain ⟨op, _, rfl⟩ := h
  rw [List.length_cons, bytes_length, Nat.add_comm]

namespace EncodedLength

/-- An instruction is as long as its mode says (R122). -/
def Statement (i : Instr) : Prop :=
  ∀ c bs, encodeIn c i = some bs → bs.length = 1 + i.operand.mode.operandBytes

theorem lda (o : Operand) : Statement (.lda o) := fun c bs => length_of_encode c _ bs
theorem ldx (o : Operand) : Statement (.ldx o) := fun c bs => length_of_encode c _ bs
theorem ldy (o : Operand) : Statement (.ldy o) := fun c bs => length_of_encode c _ bs
theorem sta (o : Operand) : Statement (.sta o) := fun c bs => length_of_encode c _ bs
theorem stx (o : Operand) : Statement (.stx o) := fun c bs => length_of_encode c _ bs
theorem sty (o : Operand) : Statement (.sty o) := fun c bs => length_of_encode c _ bs
theorem tax : Statement .tax := fun c bs => length_of_encode c _ bs
theorem tay : Statement .tay := fun c bs => length_of_encode c _ bs
theorem txa : Statement .txa := fun c bs => length_of_encode c _ bs
theorem tya : Statement .tya := fun c bs => length_of_encode c _ bs
theorem tsx : Statement .tsx := fun c bs => length_of_encode c _ bs
theorem txs : Statement .txs := fun c bs => length_of_encode c _ bs
theorem adc (o : Operand) : Statement (.adc o) := fun c bs => length_of_encode c _ bs
theorem sbc (o : Operand) : Statement (.sbc o) := fun c bs => length_of_encode c _ bs
theorem and (o : Operand) : Statement (.and o) := fun c bs => length_of_encode c _ bs
theorem ora (o : Operand) : Statement (.ora o) := fun c bs => length_of_encode c _ bs
theorem eor (o : Operand) : Statement (.eor o) := fun c bs => length_of_encode c _ bs
theorem bit (o : Operand) : Statement (.bit o) := fun c bs => length_of_encode c _ bs
theorem cmp (o : Operand) : Statement (.cmp o) := fun c bs => length_of_encode c _ bs
theorem cpx (o : Operand) : Statement (.cpx o) := fun c bs => length_of_encode c _ bs
theorem cpy (o : Operand) : Statement (.cpy o) := fun c bs => length_of_encode c _ bs
theorem inc (o : Operand) : Statement (.inc o) := fun c bs => length_of_encode c _ bs
theorem dec (o : Operand) : Statement (.dec o) := fun c bs => length_of_encode c _ bs
theorem inx : Statement .inx := fun c bs => length_of_encode c _ bs
theorem iny : Statement .iny := fun c bs => length_of_encode c _ bs
theorem dex : Statement .dex := fun c bs => length_of_encode c _ bs
theorem dey : Statement .dey := fun c bs => length_of_encode c _ bs
theorem asl (o : Operand) : Statement (.asl o) := fun c bs => length_of_encode c _ bs
theorem lsr (o : Operand) : Statement (.lsr o) := fun c bs => length_of_encode c _ bs
theorem rol (o : Operand) : Statement (.rol o) := fun c bs => length_of_encode c _ bs
theorem ror (o : Operand) : Statement (.ror o) := fun c bs => length_of_encode c _ bs
theorem bcc (off : Byte) : Statement (.bcc off) := fun c bs => length_of_encode c _ bs
theorem bcs (off : Byte) : Statement (.bcs off) := fun c bs => length_of_encode c _ bs
theorem beq (off : Byte) : Statement (.beq off) := fun c bs => length_of_encode c _ bs
theorem bne (off : Byte) : Statement (.bne off) := fun c bs => length_of_encode c _ bs
theorem bmi (off : Byte) : Statement (.bmi off) := fun c bs => length_of_encode c _ bs
theorem bpl (off : Byte) : Statement (.bpl off) := fun c bs => length_of_encode c _ bs
theorem bvc (off : Byte) : Statement (.bvc off) := fun c bs => length_of_encode c _ bs
theorem bvs (off : Byte) : Statement (.bvs off) := fun c bs => length_of_encode c _ bs
theorem jmp (o : Operand) : Statement (.jmp o) := fun c bs => length_of_encode c _ bs
theorem jsr (target : Addr) : Statement (.jsr target) := fun c bs => length_of_encode c _ bs
theorem rts : Statement .rts := fun c bs => length_of_encode c _ bs
theorem pha : Statement .pha := fun c bs => length_of_encode c _ bs
theorem php : Statement .php := fun c bs => length_of_encode c _ bs
theorem pla : Statement .pla := fun c bs => length_of_encode c _ bs
theorem plp : Statement .plp := fun c bs => length_of_encode c _ bs
theorem clc : Statement .clc := fun c bs => length_of_encode c _ bs
theorem sec : Statement .sec := fun c bs => length_of_encode c _ bs
theorem cli : Statement .cli := fun c bs => length_of_encode c _ bs
theorem sei : Statement .sei := fun c bs => length_of_encode c _ bs
theorem cld : Statement .cld := fun c bs => length_of_encode c _ bs
theorem sed : Statement .sed := fun c bs => length_of_encode c _ bs
theorem clv : Statement .clv := fun c bs => length_of_encode c _ bs
theorem nop : Statement .nop := fun c bs => length_of_encode c _ bs
theorem brk : Statement .brk := fun c bs => length_of_encode c _ bs
theorem rti : Statement .rti := fun c bs => length_of_encode c _ bs
theorem xxx (opcode : Byte) (o : Operand) : Statement (.xxx opcode o) := fun c bs => length_of_encode c _ bs
theorem unofficialNop (opcode : Byte) (o : Operand) : Statement (.unofficialNop opcode o) := fun c bs => length_of_encode c _ bs

end EncodedLength

namespace TableRow

/-- The table gives the instruction's opcode byte the instruction's addressing mode (R123, R124). -/
def Statement (i : Instr) : Prop := ∀ c op, opcodeIn c i = some op → (descriptor c op).mode = i.operand.mode

theorem of_byte (i : Instr) (b : Byte) (hb : ∀ c, opcodeIn c i = some b)
    (hm : ((cellOf officialMatrix b).map (·.mode)) = some i.operand.mode) : Statement i := by
  intro c op h
  rw [hb c] at h
  cases h
  exact mode_of_cell c _ _ hm

theorem lda (o : Operand) : Statement (.lda o) :=
  fun c op h => mode_of_form c ldaEncodings (by unfold TableAgrees; decide) o op h
theorem ldx (o : Operand) : Statement (.ldx o) :=
  fun c op h => mode_of_form c ldxEncodings (by unfold TableAgrees; decide) o op h
theorem ldy (o : Operand) : Statement (.ldy o) :=
  fun c op h => mode_of_form c ldyEncodings (by unfold TableAgrees; decide) o op h
theorem sta (o : Operand) : Statement (.sta o) :=
  fun c op h => mode_of_form c staEncodings (by unfold TableAgrees; decide) o op h
theorem stx (o : Operand) : Statement (.stx o) :=
  fun c op h => mode_of_form c stxEncodings (by unfold TableAgrees; decide) o op h
theorem sty (o : Operand) : Statement (.sty o) :=
  fun c op h => mode_of_form c styEncodings (by unfold TableAgrees; decide) o op h
theorem tax : Statement .tax := of_byte _ _ (fun _ => rfl) rfl
theorem tay : Statement .tay := of_byte _ _ (fun _ => rfl) rfl
theorem txa : Statement .txa := of_byte _ _ (fun _ => rfl) rfl
theorem tya : Statement .tya := of_byte _ _ (fun _ => rfl) rfl
theorem tsx : Statement .tsx := of_byte _ _ (fun _ => rfl) rfl
theorem txs : Statement .txs := of_byte _ _ (fun _ => rfl) rfl
theorem adc (o : Operand) : Statement (.adc o) :=
  fun c op h => mode_of_form c adcEncodings (by unfold TableAgrees; decide) o op h
theorem sbc (o : Operand) : Statement (.sbc o) :=
  fun c op h => mode_of_form c sbcEncodings (by unfold TableAgrees; decide) o op h
theorem and (o : Operand) : Statement (.and o) :=
  fun c op h => mode_of_form c andEncodings (by unfold TableAgrees; decide) o op h
theorem ora (o : Operand) : Statement (.ora o) :=
  fun c op h => mode_of_form c oraEncodings (by unfold TableAgrees; decide) o op h
theorem eor (o : Operand) : Statement (.eor o) :=
  fun c op h => mode_of_form c eorEncodings (by unfold TableAgrees; decide) o op h
theorem bit (o : Operand) : Statement (.bit o) :=
  fun c op h => mode_of_form c bitEncodings (by unfold TableAgrees; decide) o op h
theorem cmp (o : Operand) : Statement (.cmp o) :=
  fun c op h => mode_of_form c cmpEncodings (by unfold TableAgrees; decide) o op h
theorem cpx (o : Operand) : Statement (.cpx o) :=
  fun c op h => mode_of_form c cpxEncodings (by unfold TableAgrees; decide) o op h
theorem cpy (o : Operand) : Statement (.cpy o) :=
  fun c op h => mode_of_form c cpyEncodings (by unfold TableAgrees; decide) o op h
theorem inc (o : Operand) : Statement (.inc o) :=
  fun c op h => mode_of_form c incEncodings (by unfold TableAgrees; decide) o op h
theorem dec (o : Operand) : Statement (.dec o) :=
  fun c op h => mode_of_form c decEncodings (by unfold TableAgrees; decide) o op h
theorem inx : Statement .inx := of_byte _ _ (fun _ => rfl) rfl
theorem iny : Statement .iny := of_byte _ _ (fun _ => rfl) rfl
theorem dex : Statement .dex := of_byte _ _ (fun _ => rfl) rfl
theorem dey : Statement .dey := of_byte _ _ (fun _ => rfl) rfl
theorem asl (o : Operand) : Statement (.asl o) :=
  fun c op h => mode_of_form c aslEncodings (by unfold TableAgrees; decide) o op h
theorem lsr (o : Operand) : Statement (.lsr o) :=
  fun c op h => mode_of_form c lsrEncodings (by unfold TableAgrees; decide) o op h
theorem rol (o : Operand) : Statement (.rol o) :=
  fun c op h => mode_of_form c rolEncodings (by unfold TableAgrees; decide) o op h
theorem ror (o : Operand) : Statement (.ror o) :=
  fun c op h => mode_of_form c rorEncodings (by unfold TableAgrees; decide) o op h
theorem bcc (off : Byte) : Statement (.bcc off) := of_byte _ _ (fun _ => rfl) rfl
theorem bcs (off : Byte) : Statement (.bcs off) := of_byte _ _ (fun _ => rfl) rfl
theorem beq (off : Byte) : Statement (.beq off) := of_byte _ _ (fun _ => rfl) rfl
theorem bne (off : Byte) : Statement (.bne off) := of_byte _ _ (fun _ => rfl) rfl
theorem bmi (off : Byte) : Statement (.bmi off) := of_byte _ _ (fun _ => rfl) rfl
theorem bpl (off : Byte) : Statement (.bpl off) := of_byte _ _ (fun _ => rfl) rfl
theorem bvc (off : Byte) : Statement (.bvc off) := of_byte _ _ (fun _ => rfl) rfl
theorem bvs (off : Byte) : Statement (.bvs off) := of_byte _ _ (fun _ => rfl) rfl
theorem jmp (o : Operand) : Statement (.jmp o) :=
  fun c op h => mode_of_form c jmpEncodings (by unfold TableAgrees; decide) o op h
theorem jsr (target : Addr) : Statement (.jsr target) := of_byte _ _ (fun _ => rfl) rfl
theorem rts : Statement .rts := of_byte _ _ (fun _ => rfl) rfl
theorem pha : Statement .pha := of_byte _ _ (fun _ => rfl) rfl
theorem php : Statement .php := of_byte _ _ (fun _ => rfl) rfl
theorem pla : Statement .pla := of_byte _ _ (fun _ => rfl) rfl
theorem plp : Statement .plp := of_byte _ _ (fun _ => rfl) rfl
theorem clc : Statement .clc := of_byte _ _ (fun _ => rfl) rfl
theorem sec : Statement .sec := of_byte _ _ (fun _ => rfl) rfl
theorem cli : Statement .cli := of_byte _ _ (fun _ => rfl) rfl
theorem sei : Statement .sei := of_byte _ _ (fun _ => rfl) rfl
theorem cld : Statement .cld := of_byte _ _ (fun _ => rfl) rfl
theorem sed : Statement .sed := of_byte _ _ (fun _ => rfl) rfl
theorem clv : Statement .clv := of_byte _ _ (fun _ => rfl) rfl
theorem nop : Statement .nop := of_byte _ _ (fun _ => rfl) rfl
theorem brk : Statement .brk := of_byte _ _ (fun _ => rfl) rfl
theorem rti : Statement .rti := of_byte _ _ (fun _ => rfl) rfl
theorem xxx (opcode : Byte) (o : Operand) : Statement (.xxx opcode o) :=
  fun c op h => mode_of_placeholder c .xxx opcode o op h
theorem unofficialNop (opcode : Byte) (o : Operand) : Statement (.unofficialNop opcode o) :=
  fun c op h => mode_of_placeholder c .nop opcode o op h

end TableRow

end Sys2Proof.Laws
end

