-- ==== Sys2Proof/Laws/Ports.lean ====
section
/-! SUPPORT. The PPU's registers as numbers: the fields of a loopy register, the VRAM pointer, and when two PPU
addresses select one cell. -/

namespace Sys2Proof.Machine

/-- Bits put side by side, as a sum. -/
theorem toNat_append_sum {v w : Nat} (x : BitVec v) (y : BitVec w) : (x ++ y).toNat = x.toNat * 2 ^ w + y.toNat := by
  rw [BitVec.toNat_append, ← Nat.shiftLeft_add_eq_or_of_lt y.isLt, Nat.shiftLeft_eq]

/-- A loopy register from its fields (R43). -/
theorem loopy_toNat (fy : BitVec 3) (ny nx : BitVec 1) (cy cx : BitVec 5) :
    (loopy fy ny nx cy cx).toNat =
      fy.toNat * 4096 + ny.toNat * 2048 + nx.toNat * 1024 + cy.toNat * 32 + cx.toNat := by
  unfold loopy
  simp only [toNat_append_sum, Nat.reducePow]
  omega

theorem coarseX_toNat (r : Loopy) : (coarseX r).toNat = r.toNat % 32 := by simp [coarseX]
theorem coarseY_toNat (r : Loopy) : (coarseY r).toNat = r.toNat / 32 % 32 := by
  simp [coarseY, Nat.shiftRight_eq_div_pow]
theorem nametableX_toNat (r : Loopy) : (nametableX r).toNat = r.toNat / 1024 % 2 := by
  simp [nametableX, Nat.shiftRight_eq_div_pow]
theorem nametableY_toNat (r : Loopy) : (nametableY r).toNat = r.toNat / 2048 % 2 := by
  simp [nametableY, Nat.shiftRight_eq_div_pow]
theorem fineY_toNat (r : Loopy) : (fineY r).toNat = r.toNat / 4096 := by
  have := r.isLt
  simp [fineY, Nat.shiftRight_eq_div_pow]; omega

/-! Each field of a register put together from fields. -/

@[simp] theorem coarseX_loopy (fy : BitVec 3) (ny nx : BitVec 1) (cy cx : BitVec 5) :
    coarseX (loopy fy ny nx cy cx) = cx := by
  apply BitVec.eq_of_toNat_eq; rw [coarseX_toNat, loopy_toNat]; omega
@[simp] theorem coarseY_loopy (fy : BitVec 3) (ny nx : BitVec 1) (cy cx : BitVec 5) :
    coarseY (loopy fy ny nx cy cx) = cy := by
  apply BitVec.eq_of_toNat_eq; rw [coarseY_toNat, loopy_toNat]; omega
@[simp] theorem nametableX_loopy (fy : BitVec 3) (ny nx : BitVec 1) (cy cx : BitVec 5) :
    nametableX (loopy fy ny nx cy cx) = nx := by
  apply BitVec.eq_of_toNat_eq; rw [nametableX_toNat, loopy_toNat]; omega
@[simp] theorem nametableY_loopy (fy : BitVec 3) (ny nx : BitVec 1) (cy cx : BitVec 5) :
    nametableY (loopy fy ny nx cy cx) = ny := by
  apply BitVec.eq_of_toNat_eq; rw [nametableY_toNat, loopy_toNat]; omega
@[simp] theorem fineY_loopy (fy : BitVec 3) (ny nx : BitVec 1) (cy cx : BitVec 5) :
    fineY (loopy fy ny nx cy cx) = fy := by
  apply BitVec.eq_of_toNat_eq; rw [fineY_toNat, loopy_toNat]; omega

/-- The address on the PPU bus is `v`. -/
theorem vAddr_toNat (p : Ppu) : p.vAddr.toNat = p.v.toNat := by
  have := p.v.isLt
  simp [Ppu.vAddr]; omega

/-- `v` after a data-port access (R313). -/
theorem nextV_toNat (p : Ppu) : p.nextV.toNat = (p.v.toNat + if p.ctrl.getLsbD 2 then 32 else 1) % 0x8000 := by
  unfold Ppu.nextV Ppu.incrementMode
  cases p.ctrl.getLsbD 2 <;> simp

/-- A PPU read by the address: character ROM, nametables, palette (R95). -/
theorem ppuRead_eq (s : State) (a : Addr) :
    s.ppuRead a =
      if a.toNat % 0x4000 ≤ 0x1FFF then Cells.read s.chr (a.toNat % 0x4000)
      else if a.toNat % 0x4000 ≤ 0x3EFF then Cells.read s.ppu.nt (ntIndex s.cfg.mirror (a.toNat % 0x4000))
      else Cells.read s.ppu.pal (palIndex (a.toNat % 0x4000)) := by
  unfold State.ppuRead mapper0PpuRead
  by_cases h : a.toNat % 0x4000 ≤ 0x1FFF <;> simp [h]

/-- When two nametable addresses select one byte (R97). -/
theorem ntIndex_eq_iff (m : Mirroring) (p q : Nat) :
    ntIndex m p = ntIndex m q ↔ (p % 0x400 = q % 0x400 ∧
      match m with
      | .vertical => p / 0x400 % 2 = q / 0x400 % 2
      | .horizontal => p / 0x800 % 2 = q / 0x800 % 2) := by
  cases m <;> simp only [ntIndex] <;> omega

/-- When two palette addresses select one byte (R98). -/
theorem palIndex_eq_iff (p q : Nat) :
    palIndex p = palIndex q ↔ (p % 0x20 = q % 0x20 ∨ (p % 4 = 0 ∧ q % 4 = 0 ∧ p % 0x10 = q % 0x10)) := by
  unfold palIndex
  simp only
  split <;> split <;> omega

end Sys2Proof.Machine
end

