-- ==== Sys2Proof/Tests/Slice0.lean ====
section
/-! SUPPORT. Tests. Expected results come from spec/opcode_table.json (decoding) and from the worked examples of
spec/95_test_vectors.md (one instruction step, one access, one dot or one tick each), whose numbers the names
carry; then one witness for the hypotheses of each statement that has some. -/

open Sys2Proof Sys2Proof.Machine

namespace Sys2Proof.Tests

/-! ## Well-formedness: each check refuses an ill-formed term -/

theorem test_refused_load_store :
    (Instr.lda .imp).wellFormed = false ∧ (Instr.lda .pad).wellFormed = false ∧
    (Instr.lda (.zpy 0)).wellFormed = false ∧ (Instr.ldx (.zpx 0)).wellFormed = false ∧
    (Instr.ldy (.aby 0)).wellFormed = false ∧ (Instr.sta (.imm 0)).wellFormed = false ∧
    (Instr.stx (.abx 0)).wellFormed = false ∧ (Instr.sty (.zpy 0)).wellFormed = false := by decide

theorem test_refused_arithmetic :
    (Instr.adc .imp).wellFormed = false ∧ (Instr.sbc (.ind 0)).wellFormed = false ∧
    (Instr.and (.zpy 0)).wellFormed = false ∧ (Instr.ora .pad).wellFormed = false ∧
    (Instr.eor (.rel 0)).wellFormed = false ∧ (Instr.bit (.imm 0)).wellFormed = false ∧
    (Instr.cmp (.ind 0)).wellFormed = false ∧ (Instr.cpx (.zpx 0)).wellFormed = false ∧
    (Instr.cpy (.izy 0)).wellFormed = false ∧ (Instr.inc .imp).wellFormed = false ∧
    (Instr.dec (.aby 0)).wellFormed = false := by decide

theorem test_refused_shift_jump :
    (Instr.asl (.imm 0)).wellFormed = false ∧ (Instr.lsr (.zpy 0)).wellFormed = false ∧
    (Instr.rol (.izx 0)).wellFormed = false ∧ (Instr.ror (.aby 0)).wellFormed = false ∧
    (Instr.jmp (.zp0 0)).wellFormed = false ∧ (Instr.jmp .imp).wellFormed = false := by decide

/-- An official byte, a byte of the other operation, a mode that the table does not give, a read IMM byte. -/
theorem test_refused_placeholder :
    (Instr.xxx 0xEA .imp).wellFormed = false ∧ (Instr.xxx 0x04 .imp).wellFormed = false ∧
    (Instr.unofficialNop 0x02 .imp).wellFormed = false ∧ (Instr.xxx 0x02 (.zp0 0)).wellFormed = false ∧
    (Instr.unofficialNop 0x80 (.imm 0)).wellFormed = false := by decide

theorem test_refused_has_no_bytes : encode (.lda .imp) = none ∧ encode (.xxx 0xEA .imp) = none := by decide

/-! ## Decoding: every official encoding of spec/opcode_table.json, and bytes of both placeholder lists -/

theorem test_decode_loads_stores_transfers_1 :
    decode [0xAD, 0x34, 0x12] = .ok (.lda (.abs 0x1234), []) ∧
    decode [0xBD, 0x34, 0x12] = .ok (.lda (.abx 0x1234), []) ∧
    decode [0xB9, 0x34, 0x12] = .ok (.lda (.aby 0x1234), []) ∧
    decode [0xA9, 0x42] = .ok (.lda (.imm 0x42), []) ∧
    decode [0xA1, 0x42] = .ok (.lda (.izx 0x42), []) ∧
    decode [0xB1, 0x42] = .ok (.lda (.izy 0x42), []) ∧
    decode [0xA5, 0x42] = .ok (.lda (.zp0 0x42), []) ∧
    decode [0xB5, 0x42] = .ok (.lda (.zpx 0x42), []) ∧
    decode [0xAE, 0x34, 0x12] = .ok (.ldx (.abs 0x1234), []) ∧
    decode [0xBE, 0x34, 0x12] = .ok (.ldx (.aby 0x1234), []) ∧
    decode [0xA2, 0x42] = .ok (.ldx (.imm 0x42), []) ∧
    decode [0xA6, 0x42] = .ok (.ldx (.zp0 0x42), []) ∧
    decode [0xB6, 0x42] = .ok (.ldx (.zpy 0x42), []) ∧
    decode [0xAC, 0x34, 0x12] = .ok (.ldy (.abs 0x1234), []) ∧
    decode [0xBC, 0x34, 0x12] = .ok (.ldy (.abx 0x1234), []) ∧
    decode [0xA0, 0x42] = .ok (.ldy (.imm 0x42), []) ∧
    decode [0xA4, 0x42] = .ok (.ldy (.zp0 0x42), []) ∧
    decode [0xB4, 0x42] = .ok (.ldy (.zpx 0x42), []) ∧
    decode [0x8D, 0x34, 0x12] = .ok (.sta (.abs 0x1234), []) ∧
    decode [0x9D, 0x34, 0x12] = .ok (.sta (.abx 0x1234), []) ∧
    decode [0x99, 0x34, 0x12] = .ok (.sta (.aby 0x1234), []) ∧
    decode [0x81, 0x42] = .ok (.sta (.izx 0x42), []) ∧
    decode [0x91, 0x42] = .ok (.sta (.izy 0x42), []) ∧
    decode [0x85, 0x42] = .ok (.sta (.zp0 0x42), []) := by
  and_intros <;> rfl

theorem test_decode_loads_stores_transfers_2 :
    decode [0x95, 0x42] = .ok (.sta (.zpx 0x42), []) ∧
    decode [0x8E, 0x34, 0x12] = .ok (.stx (.abs 0x1234), []) ∧
    decode [0x86, 0x42] = .ok (.stx (.zp0 0x42), []) ∧
    decode [0x96, 0x42] = .ok (.stx (.zpy 0x42), []) ∧
    decode [0x8C, 0x34, 0x12] = .ok (.sty (.abs 0x1234), []) ∧
    decode [0x84, 0x42] = .ok (.sty (.zp0 0x42), []) ∧
    decode [0x94, 0x42] = .ok (.sty (.zpx 0x42), []) ∧
    decode [0xAA] = .ok (.tax, []) ∧
    decode [0xA8] = .ok (.tay, []) ∧
    decode [0xBA] = .ok (.tsx, []) ∧
    decode [0x8A] = .ok (.txa, []) ∧
    decode [0x9A] = .ok (.txs, []) ∧
    decode [0x98] = .ok (.tya, []) := by
  and_intros <;> rfl

theorem test_decode_arithmetic_1 :
    decode [0x6D, 0x34, 0x12] = .ok (.adc (.abs 0x1234), []) ∧
    decode [0x7D, 0x34, 0x12] = .ok (.adc (.abx 0x1234), []) ∧
    decode [0x79, 0x34, 0x12] = .ok (.adc (.aby 0x1234), []) ∧
    decode [0x69, 0x42] = .ok (.adc (.imm 0x42), []) ∧
    decode [0x61, 0x42] = .ok (.adc (.izx 0x42), []) ∧
    decode [0x71, 0x42] = .ok (.adc (.izy 0x42), []) ∧
    decode [0x65, 0x42] = .ok (.adc (.zp0 0x42), []) ∧
    decode [0x75, 0x42] = .ok (.adc (.zpx 0x42), []) ∧
    decode [0x2D, 0x34, 0x12] = .ok (.and (.abs 0x1234), []) ∧
    decode [0x3D, 0x34, 0x12] = .ok (.and (.abx 0x1234), []) ∧
    decode [0x39, 0x34, 0x12] = .ok (.and (.aby 0x1234), []) ∧
    decode [0x29, 0x42] = .ok (.and (.imm 0x42), []) ∧
    decode [0x21, 0x42] = .ok (.and (.izx 0x42), []) ∧
    decode [0x31, 0x42] = .ok (.and (.izy 0x42), []) ∧
    decode [0x25, 0x42] = .ok (.and (.zp0 0x42), []) ∧
    decode [0x35, 0x42] = .ok (.and (.zpx 0x42), []) ∧
    decode [0x2C, 0x34, 0x12] = .ok (.bit (.abs 0x1234), []) ∧
    decode [0x24, 0x42] = .ok (.bit (.zp0 0x42), []) ∧
    decode [0xCD, 0x34, 0x12] = .ok (.cmp (.abs 0x1234), []) ∧
    decode [0xDD, 0x34, 0x12] = .ok (.cmp (.abx 0x1234), []) ∧
    decode [0xD9, 0x34, 0x12] = .ok (.cmp (.aby 0x1234), []) ∧
    decode [0xC9, 0x42] = .ok (.cmp (.imm 0x42), []) ∧
    decode [0xC1, 0x42] = .ok (.cmp (.izx 0x42), []) ∧
    decode [0xD1, 0x42] = .ok (.cmp (.izy 0x42), []) := by
  and_intros <;> rfl

theorem test_decode_arithmetic_2 :
    decode [0xC5, 0x42] = .ok (.cmp (.zp0 0x42), []) ∧
    decode [0xD5, 0x42] = .ok (.cmp (.zpx 0x42), []) ∧
    decode [0xEC, 0x34, 0x12] = .ok (.cpx (.abs 0x1234), []) ∧
    decode [0xE0, 0x42] = .ok (.cpx (.imm 0x42), []) ∧
    decode [0xE4, 0x42] = .ok (.cpx (.zp0 0x42), []) ∧
    decode [0xCC, 0x34, 0x12] = .ok (.cpy (.abs 0x1234), []) ∧
    decode [0xC0, 0x42] = .ok (.cpy (.imm 0x42), []) ∧
    decode [0xC4, 0x42] = .ok (.cpy (.zp0 0x42), []) ∧
    decode [0xCE, 0x34, 0x12] = .ok (.dec (.abs 0x1234), []) ∧
    decode [0xDE, 0x34, 0x12] = .ok (.dec (.abx 0x1234), []) ∧
    decode [0xC6, 0x42] = .ok (.dec (.zp0 0x42), []) ∧
    decode [0xD6, 0x42] = .ok (.dec (.zpx 0x42), []) ∧
    decode [0xCA] = .ok (.dex, []) ∧
    decode [0x88] = .ok (.dey, []) ∧
    decode [0x4D, 0x34, 0x12] = .ok (.eor (.abs 0x1234), []) ∧
    decode [0x5D, 0x34, 0x12] = .ok (.eor (.abx 0x1234), []) ∧
    decode [0x59, 0x34, 0x12] = .ok (.eor (.aby 0x1234), []) ∧
    decode [0x49, 0x42] = .ok (.eor (.imm 0x42), []) ∧
    decode [0x41, 0x42] = .ok (.eor (.izx 0x42), []) ∧
    decode [0x51, 0x42] = .ok (.eor (.izy 0x42), []) ∧
    decode [0x45, 0x42] = .ok (.eor (.zp0 0x42), []) ∧
    decode [0x55, 0x42] = .ok (.eor (.zpx 0x42), []) ∧
    decode [0xEE, 0x34, 0x12] = .ok (.inc (.abs 0x1234), []) ∧
    decode [0xFE, 0x34, 0x12] = .ok (.inc (.abx 0x1234), []) := by
  and_intros <;> rfl

theorem test_decode_arithmetic_3 :
    decode [0xE6, 0x42] = .ok (.inc (.zp0 0x42), []) ∧
    decode [0xF6, 0x42] = .ok (.inc (.zpx 0x42), []) ∧
    decode [0xE8] = .ok (.inx, []) ∧
    decode [0xC8] = .ok (.iny, []) ∧
    decode [0x0D, 0x34, 0x12] = .ok (.ora (.abs 0x1234), []) ∧
    decode [0x1D, 0x34, 0x12] = .ok (.ora (.abx 0x1234), []) ∧
    decode [0x19, 0x34, 0x12] = .ok (.ora (.aby 0x1234), []) ∧
    decode [0x09, 0x42] = .ok (.ora (.imm 0x42), []) ∧
    decode [0x01, 0x42] = .ok (.ora (.izx 0x42), []) ∧
    decode [0x11, 0x42] = .ok (.ora (.izy 0x42), []) ∧
    decode [0x05, 0x42] = .ok (.ora (.zp0 0x42), []) ∧
    decode [0x15, 0x42] = .ok (.ora (.zpx 0x42), []) ∧
    decode [0xED, 0x34, 0x12] = .ok (.sbc (.abs 0x1234), []) ∧
    decode [0xFD, 0x34, 0x12] = .ok (.sbc (.abx 0x1234), []) ∧
    decode [0xF9, 0x34, 0x12] = .ok (.sbc (.aby 0x1234), []) ∧
    decode [0xE9, 0x42] = .ok (.sbc (.imm 0x42), []) ∧
    decode [0xE1, 0x42] = .ok (.sbc (.izx 0x42), []) ∧
    decode [0xF1, 0x42] = .ok (.sbc (.izy 0x42), []) ∧
    decode [0xE5, 0x42] = .ok (.sbc (.zp0 0x42), []) ∧
    decode [0xF5, 0x42] = .ok (.sbc (.zpx 0x42), []) := by
  and_intros <;> rfl

theorem test_decode_shifts :
    decode [0x0E, 0x34, 0x12] = .ok (.asl (.abs 0x1234), []) ∧
    decode [0x1E, 0x34, 0x12] = .ok (.asl (.abx 0x1234), []) ∧
    decode [0x06, 0x42] = .ok (.asl (.zp0 0x42), []) ∧
    decode [0x16, 0x42] = .ok (.asl (.zpx 0x42), []) ∧
    decode [0x0A] = .ok (.asl .imp, []) ∧
    decode [0x4E, 0x34, 0x12] = .ok (.lsr (.abs 0x1234), []) ∧
    decode [0x5E, 0x34, 0x12] = .ok (.lsr (.abx 0x1234), []) ∧
    decode [0x46, 0x42] = .ok (.lsr (.zp0 0x42), []) ∧
    decode [0x56, 0x42] = .ok (.lsr (.zpx 0x42), []) ∧
    decode [0x4A] = .ok (.lsr .imp, []) ∧
    decode [0x2E, 0x34, 0x12] = .ok (.rol (.abs 0x1234), []) ∧
    decode [0x3E, 0x34, 0x12] = .ok (.rol (.abx 0x1234), []) ∧
    decode [0x26, 0x42] = .ok (.rol (.zp0 0x42), []) ∧
    decode [0x36, 0x42] = .ok (.rol (.zpx 0x42), []) ∧
    decode [0x2A] = .ok (.rol .imp, []) ∧
    decode [0x6E, 0x34, 0x12] = .ok (.ror (.abs 0x1234), []) ∧
    decode [0x7E, 0x34, 0x12] = .ok (.ror (.abx 0x1234), []) ∧
    decode [0x66, 0x42] = .ok (.ror (.zp0 0x42), []) ∧
    decode [0x76, 0x42] = .ok (.ror (.zpx 0x42), []) ∧
    decode [0x6A] = .ok (.ror .imp, []) := by
  and_intros <;> rfl

theorem test_decode_branches_jumps :
    decode [0x90, 0x42] = .ok (.bcc 0x42, []) ∧
    decode [0xB0, 0x42] = .ok (.bcs 0x42, []) ∧
    decode [0xF0, 0x42] = .ok (.beq 0x42, []) ∧
    decode [0x30, 0x42] = .ok (.bmi 0x42, []) ∧
    decode [0xD0, 0x42] = .ok (.bne 0x42, []) ∧
    decode [0x10, 0x42] = .ok (.bpl 0x42, []) ∧
    decode [0x50, 0x42] = .ok (.bvc 0x42, []) ∧
    decode [0x70, 0x42] = .ok (.bvs 0x42, []) ∧
    decode [0x4C, 0x34, 0x12] = .ok (.jmp (.abs 0x1234), []) ∧
    decode [0x6C, 0x34, 0x12] = .ok (.jmp (.ind 0x1234), []) ∧
    decode [0x20, 0x34, 0x12] = .ok (.jsr 0x1234, []) ∧
    decode [0x60] = .ok (.rts, []) := by
  and_intros <;> rfl

theorem test_decode_stack_flags_system :
    decode [0x00, 0x42] = .ok (.brk, []) ∧
    decode [0x18] = .ok (.clc, []) ∧
    decode [0xD8] = .ok (.cld, []) ∧
    decode [0x58] = .ok (.cli, []) ∧
    decode [0xB8] = .ok (.clv, []) ∧
    decode [0xEA] = .ok (.nop, []) ∧
    decode [0x48] = .ok (.pha, []) ∧
    decode [0x08] = .ok (.php, []) ∧
    decode [0x68] = .ok (.pla, []) ∧
    decode [0x28] = .ok (.plp, []) ∧
    decode [0x40] = .ok (.rti, []) ∧
    decode [0x38] = .ok (.sec, []) ∧
    decode [0xF8] = .ok (.sed, []) ∧
    decode [0x78] = .ok (.sei, []) := by
  and_intros <;> rfl

/-- 30_encoding.md R127: bytes of the XXX and of the NOP list. -/
theorem test_decode_placeholders :
    decode [0x02] = .ok (.xxx 0x02 .imp, []) ∧ decode [0x03, 0x10] = .ok (.xxx 0x03 .imp, [0x10]) ∧
    decode [0x9E] = .ok (.xxx 0x9E .imp, []) ∧ decode [0xA7] = .ok (.xxx 0xA7 .imp, []) ∧
    decode [0xEB] = .ok (.xxx 0xEB .imp, []) ∧ decode [0xFF] = .ok (.xxx 0xFF .imp, []) ∧
    decode [0x04] = .ok (.unofficialNop 0x04 .imp, []) ∧ decode [0x1A] = .ok (.unofficialNop 0x1A .imp, []) ∧
    decode [0x80, 0x10] = .ok (.unofficialNop 0x80 .imp, [0x10]) ∧
    decode [0xFC] = .ok (.unofficialNop 0xFC .imp, []) := by
  and_intros <;> rfl

/-- Missing bytes are rejected by name. -/
theorem test_decode_truncated :
    decode [] = .error .noBytes ∧ decode [0xA9] = .error (.truncated 0xA9) ∧
    decode [0xAD, 0x34] = .error (.truncated 0xAD) := by
  and_intros <;> rfl

theorem test_decode_table_word :
    decodeTableWord 24 0x12347D = some (.adc (.abx 0x1234)) ∧ decodeTableWord 8 0x8D = some (.sta (.abs 0x0000)) := by
  and_intros <;> rfl

/-- 30_encoding.md R130. -/
theorem test_assembly :
    (Instr.ldx (.imm 0x0A)).assembly 0 = "LDX #$0A" ∧ (Instr.lda (.izy 0x20)).assembly 0 = "LDA ($20),Y" ∧
    (Instr.bne 0xFC).assembly 0x8007 = "BNE $8003" := by decide

/-! ## One instruction step (R132) -/

/-- A machine with registers A, X, Y, S, P, with `bytes` in program ROM at `pc` and `ram` in work RAM. -/
def vectorState (pc : Addr) (bytes : List Byte) (a x y s p : Byte) (ram : Memory) : State :=
  let st : State := { State.reset with
    cpu := { State.reset.cpu with a := a, x := x, y := y, s := s, p := p, pc := pc, countdown := 0 }
    ram := ram }
  let put (st : State) (k : Nat) : State := st.placeByte (pc + BitVec.ofNat 16 k) (bytes.getD k 0)
  put (put (put st 0) 1) 2

/-- The IRQ vector at 0x9000. -/
def withIrqVector (st : State) : State := (st.placeByte 0xFFFE 0x00).placeByte 0xFFFF 0x90

/-- The state that a result holds; the state `s` where there is none. -/
def stateOr (s : State) (r : Result) : State :=
  match r with
  | .next t => t
  | .fault _ => s
  | .refused _ => s

/-- One instruction step. -/
def ran (s : State) : State := stateOr s (executeInstruction s)

/-! Load, store, transfer: vectors of 95_test_vectors.md, by their numbers there. -/

theorem test_lda_imm_V1 :
    let t := ran (vectorState 0x8000 [0xA9, 0x80] 0x00 0x00 0x00 0xFD 0x20 [])
    t.cpu.a = 0x80 ∧ t.cpu.p = 0xA0 ∧ t.cpu.pc = 0x8002 ∧ t.cpu.countdown = 2 := by decide

theorem test_lda_izx_V11 :
    let t := ran (vectorState 0x8000 [0xA1, 0xFE] 0x00 0x01 0x00 0xFD 0x20 [(0x00, 0x02), (0xFF, 0x34), (0x0234,
      0x5A)])
    t.cpu.a = 0x5A ∧ t.cpu.pc = 0x8002 ∧ t.cpu.countdown = 6 := by decide

theorem test_ldx_V4 :
    let t := ran (vectorState 0x8000 [0xB6, 0xFF] 0x00 0x00 0x02 0xFD 0x20 [(0x01, 0x55)])
    t.cpu.x = 0x55 ∧ t.cpu.p = 0x20 ∧ t.cpu.pc = 0x8002 ∧ t.cpu.countdown = 4 := by decide

theorem test_ldx_aby_V22 :
    let t := ran (vectorState 0x8000 [0xBE, 0xFF, 0x02] 0x00 0x00 0x01 0xFD 0x20 [(0x0300, 0x80)])
    t.cpu.x = 0x80 ∧ t.cpu.p = 0xA0 ∧ t.cpu.countdown = 5 := by decide

theorem test_ldy_V21 :
    let t := ran (vectorState 0x8000 [0xA0, 0xFF] 0x00 0x00 0x00 0xFD 0x20 [])
    t.cpu.y = 0xFF ∧ t.cpu.p = 0xA0 ∧ t.cpu.countdown = 2 := by decide

theorem test_sta_abx_V9 :
    let t := ran (vectorState 0x8000 [0x9D, 0xF0, 0x02] 0x77 0x10 0x00 0xFD 0x20 [])
    (t.busRead 0x0300).1 = 0x77 ∧ t.cpu.pc = 0x8003 ∧ t.cpu.countdown = 5 := by decide

theorem test_sta_izy_V15 :
    let t := ran (vectorState 0x8000 [0x91, 0x40] 0x99 0x00 0x10 0xFD 0x20 [(0x40, 0xF8), (0x41, 0x02)])
    (t.busRead 0x0308).1 = 0x99 ∧ t.cpu.pc = 0x8002 ∧ t.cpu.countdown = 6 := by decide

theorem test_stx_V25 :
    let t := ran (vectorState 0x8000 [0x96, 0xFF] 0x00 0x3C 0x02 0xFD 0x20 [])
    (t.busRead 0x0001).1 = 0x3C ∧ (t.busRead 0x0101).1 = 0x00 ∧ t.cpu.countdown = 4 := by decide

theorem test_sty_V26 :
    let t := ran (vectorState 0x8000 [0x94, 0x0F] 0x00 0x01 0x07 0xFD 0x20 [])
    (t.busRead 0x0010).1 = 0x07 ∧ t.cpu.countdown = 4 := by decide

theorem test_tax_V29 :
    let t := ran (vectorState 0x8000 [0xAA] 0x80 0x00 0x00 0xFD 0x20 [])
    t.cpu.x = 0x80 ∧ t.cpu.p = 0xA0 ∧ t.cpu.countdown = 2 := by decide

theorem test_tay_V30 :
    let t := ran (vectorState 0x8000 [0xA8] 0x00 0x00 0x00 0xFD 0xA0 [])
    t.cpu.y = 0x00 ∧ t.cpu.p = 0x22 ∧ t.cpu.countdown = 2 := by decide

theorem test_txa_V31 :
    let t := ran (vectorState 0x8000 [0x8A] 0x00 0x7F 0x00 0xFD 0x20 [])
    t.cpu.a = 0x7F ∧ t.cpu.p = 0x20 ∧ t.cpu.countdown = 2 := by decide

theorem test_tya_V32 :
    let t := ran (vectorState 0x8000 [0x98] 0x00 0x00 0xFF 0xFD 0x20 [])
    t.cpu.a = 0xFF ∧ t.cpu.p = 0xA0 ∧ t.cpu.countdown = 2 := by decide

theorem test_tsx_V33 :
    let t := ran (vectorState 0x8000 [0xBA] 0x00 0x00 0x00 0xFD 0x20 [])
    t.cpu.x = 0xFD ∧ t.cpu.p = 0xA0 ∧ t.cpu.countdown = 2 := by decide

theorem test_txs_V34 :
    let t := ran (vectorState 0x8000 [0x9A] 0x00 0x00 0x00 0xFD 0xA0 [])
    t.cpu.s = 0x00 ∧ t.cpu.p = 0xA0 ∧ t.cpu.countdown = 2 := by decide

/-! Arithmetic and logic: vectors of 95_test_vectors.md, by their numbers there. -/

theorem test_adc_V35 :
    let t := ran (vectorState 0x8000 [0x69, 0x50] 0x50 0x00 0x00 0xFD 0x20 [])
    t.cpu.a = 0xA0 ∧ t.cpu.p = 0xE0 ∧ t.cpu.countdown = 2 := by decide

theorem test_adc_V46 :
    let t := ran (vectorState 0x8000 [0x69, 0x80] 0x80 0x00 0x00 0xFD 0x20 [])
    t.cpu.a = 0x00 ∧ t.cpu.p = 0x63 ∧ t.cpu.countdown = 2 := by decide

theorem test_sbc_V59 :
    let t := ran (vectorState 0x8000 [0xE9, 0x01] 0x00 0x00 0x00 0xFD 0x21 [])
    t.cpu.a = 0xFF ∧ t.cpu.p = 0xA0 ∧ t.cpu.countdown = 2 := by decide

theorem test_sbc_V62 :
    let t := ran (vectorState 0x8000 [0xE9, 0xFF] 0x7F 0x00 0x00 0xFD 0x21 [])
    t.cpu.a = 0x80 ∧ t.cpu.p = 0xE0 ∧ t.cpu.countdown = 2 := by decide

theorem test_and_V67 :
    let t := ran (vectorState 0x8000 [0x29, 0x0F] 0xF0 0x00 0x00 0xFD 0x20 [])
    t.cpu.a = 0x00 ∧ t.cpu.p = 0x22 ∧ t.cpu.countdown = 2 := by decide

theorem test_ora_V69 :
    let t := ran (vectorState 0x8000 [0x09, 0x80] 0x0F 0x00 0x00 0xFD 0x20 [])
    t.cpu.a = 0x8F ∧ t.cpu.p = 0xA0 ∧ t.cpu.countdown = 2 := by decide

theorem test_eor_V72 :
    let t := ran (vectorState 0x8000 [0x49, 0xFF] 0x55 0x00 0x00 0xFD 0x20 [])
    t.cpu.a = 0xAA ∧ t.cpu.p = 0xA0 ∧ t.cpu.countdown = 2 := by decide

theorem test_bit_V73 :
    let t := ran (vectorState 0x8000 [0x24, 0x10] 0x01 0x00 0x00 0xFD 0x20 [(0x10, 0xC0)])
    t.cpu.a = 0x01 ∧ t.cpu.p = 0xE2 ∧ t.cpu.countdown = 3 := by decide

theorem test_bit_V74 :
    let t := ran (vectorState 0x8000 [0x24, 0x10] 0xFF 0x00 0x00 0xFD 0xE0 [(0x10, 0x3F)])
    t.cpu.a = 0xFF ∧ t.cpu.p = 0x20 ∧ t.cpu.countdown = 3 := by decide

theorem test_cmp_V77 :
    let t := ran (vectorState 0x8000 [0xC9, 0x41] 0x40 0x00 0x00 0xFD 0x20 [])
    t.cpu.a = 0x40 ∧ t.cpu.p = 0xA0 ∧ t.cpu.countdown = 2 := by decide

theorem test_cmp_V81 :
    let t := ran (vectorState 0x8000 [0xC9, 0x00] 0xFF 0x00 0x00 0xFD 0x20 [])
    t.cpu.a = 0xFF ∧ t.cpu.p = 0xA1 ∧ t.cpu.countdown = 2 := by decide

theorem test_cpx_V84 :
    let t := ran (vectorState 0x8000 [0xE0, 0x0A] 0x00 0x0A 0x00 0xFD 0x20 [])
    t.cpu.p = 0x23 ∧ t.cpu.countdown = 2 := by decide

theorem test_cpy_V87 :
    let t := ran (vectorState 0x8000 [0xCC, 0x00, 0x03] 0x00 0x00 0x90 0xFD 0x20 [(0x0300, 0x10)])
    t.cpu.p = 0xA1 ∧ t.cpu.countdown = 4 := by decide

theorem test_inc_V88 :
    let t := ran (vectorState 0x8000 [0xE6, 0x10] 0x00 0x00 0x00 0xFD 0x21 [(0x10, 0xFF)])
    (t.busRead 0x0010).1 = 0x00 ∧ t.cpu.p = 0x23 ∧ t.cpu.countdown = 5 := by decide

theorem test_inc_V89 :
    let t := ran (vectorState 0x8000 [0xFE, 0xFF, 0x02] 0x00 0x01 0x00 0xFD 0x20 [(0x0300, 0x7F)])
    (t.busRead 0x0300).1 = 0x80 ∧ t.cpu.p = 0xA0 ∧ t.cpu.countdown = 7 := by decide

theorem test_dec_V90 :
    let t := ran (vectorState 0x8000 [0xC6, 0x10] 0x00 0x00 0x00 0xFD 0x20 [])
    (t.busRead 0x0010).1 = 0xFF ∧ t.cpu.p = 0xA0 ∧ t.cpu.countdown = 5 := by decide

theorem test_inx_V92 :
    let t := ran (vectorState 0x8000 [0xE8] 0x00 0xFF 0x00 0xFD 0x20 [])
    t.cpu.x = 0x00 ∧ t.cpu.p = 0x22 ∧ t.cpu.countdown = 2 := by decide

theorem test_iny_V93 :
    let t := ran (vectorState 0x8000 [0xC8] 0x00 0x00 0x7F 0xFD 0x20 [])
    t.cpu.y = 0x80 ∧ t.cpu.p = 0xA0 ∧ t.cpu.countdown = 2 := by decide

theorem test_dex_V94 :
    let t := ran (vectorState 0x8000 [0xCA] 0x00 0x00 0x00 0xFD 0x20 [])
    t.cpu.x = 0xFF ∧ t.cpu.p = 0xA0 ∧ t.cpu.countdown = 2 := by decide

theorem test_dey_V95 :
    let t := ran (vectorState 0x8000 [0x88] 0x00 0x00 0x01 0xFD 0x20 [])
    t.cpu.y = 0x00 ∧ t.cpu.p = 0x22 ∧ t.cpu.countdown = 2 := by decide

/-! Shift and rotate: vectors of 95_test_vectors.md, by their numbers there. -/

theorem test_asl_V96 :
    let t := ran (vectorState 0x8000 [0x0A] 0x81 0x00 0x00 0xFD 0x20 [])
    t.cpu.a = 0x02 ∧ t.cpu.p = 0x21 ∧ t.cpu.countdown = 2 := by decide

theorem test_asl_V98 :
    let t := ran (vectorState 0x8000 [0x06, 0x10] 0xEE 0x00 0x00 0xFD 0x20 [(0x10, 0x40)])
    (t.busRead 0x0010).1 = 0x80 ∧ t.cpu.a = 0xEE ∧ t.cpu.p = 0xA0 ∧ t.cpu.countdown = 5 := by decide

theorem test_lsr_V99 :
    let t := ran (vectorState 0x8000 [0x4A] 0x01 0x00 0x00 0xFD 0xA0 [])
    t.cpu.a = 0x00 ∧ t.cpu.p = 0x23 ∧ t.cpu.countdown = 2 := by decide

theorem test_lsr_V100 :
    let t := ran (vectorState 0x8000 [0x4E, 0x00, 0x03] 0x00 0x00 0x00 0xFD 0x20 [(0x0300, 0xFE)])
    (t.busRead 0x0300).1 = 0x7F ∧ t.cpu.p = 0x20 ∧ t.cpu.countdown = 6 := by decide

theorem test_rol_V102 :
    let t := ran (vectorState 0x8000 [0x2A] 0x80 0x00 0x00 0xFD 0x21 [])
    t.cpu.a = 0x01 ∧ t.cpu.p = 0x21 ∧ t.cpu.countdown = 2 := by decide

theorem test_rol_V104 :
    let t := ran (vectorState 0x8000 [0x36, 0x0F] 0x00 0x01 0x00 0xFD 0x20 [(0x10, 0xFF)])
    (t.busRead 0x0010).1 = 0xFE ∧ t.cpu.p = 0xA1 ∧ t.cpu.countdown = 6 := by decide

theorem test_ror_V106 :
    let t := ran (vectorState 0x8000 [0x6A] 0x01 0x00 0x00 0xFD 0x21 [])
    t.cpu.a = 0x80 ∧ t.cpu.p = 0xA1 ∧ t.cpu.countdown = 2 := by decide

theorem test_ror_V108 :
    let t := ran (vectorState 0x8000 [0x7E, 0xFF, 0x02] 0x00 0x01 0x00 0xFD 0x20 [(0x0300, 0x02)])
    (t.busRead 0x0300).1 = 0x01 ∧ t.cpu.p = 0x20 ∧ t.cpu.countdown = 7 := by decide

/-! Branch and jump: vectors of 95_test_vectors.md, by their numbers there. -/

theorem test_bcc_V114 :
    let t := ran (vectorState 0x8000 [0x90, 0x10] 0x00 0x00 0x00 0xFD 0x20 [])
    t.cpu.pc = 0x8012 ∧ t.cpu.countdown = 3 := by decide

theorem test_bcc_V115 :
    let t := ran (vectorState 0x8000 [0x90, 0x10] 0x00 0x00 0x00 0xFD 0x21 [])
    t.cpu.pc = 0x8002 ∧ t.cpu.countdown = 2 := by decide

theorem test_bcs_V116 :
    let t := ran (vectorState 0x8000 [0xB0, 0x10] 0x00 0x00 0x00 0xFD 0x21 [])
    t.cpu.pc = 0x8012 ∧ t.cpu.countdown = 3 := by decide

theorem test_beq_V112 :
    let t := ran (vectorState 0x8100 [0xF0, 0xFD] 0x00 0x00 0x00 0xFD 0x22 [])
    t.cpu.pc = 0x80FF ∧ t.cpu.countdown = 4 := by decide

theorem test_beq_V113 :
    let t := ran (vectorState 0x80FE [0xF0, 0x01] 0x00 0x00 0x00 0xFD 0x22 [])
    t.cpu.pc = 0x8101 ∧ t.cpu.countdown = 3 := by decide

theorem test_bne_V109 :
    let t := ran (vectorState 0x8005 [0xD0, 0xFC] 0x00 0x00 0x00 0xFD 0x20 [])
    t.cpu.pc = 0x8003 ∧ t.cpu.p = 0x20 ∧ t.cpu.countdown = 3 := by decide

theorem test_bne_V110 :
    let t := ran (vectorState 0x8005 [0xD0, 0xFC] 0x00 0x00 0x00 0xFD 0x22 [])
    t.cpu.pc = 0x8007 ∧ t.cpu.p = 0x22 ∧ t.cpu.countdown = 2 := by decide

theorem test_bmi_V117 :
    let t := ran (vectorState 0x8000 [0x30, 0x10] 0x00 0x00 0x00 0xFD 0xA0 [])
    t.cpu.pc = 0x8012 ∧ t.cpu.countdown = 3 := by decide

theorem test_bpl_V111 :
    let t := ran (vectorState 0x80F0 [0x10, 0x7F] 0x00 0x00 0x00 0xFD 0x20 [])
    t.cpu.pc = 0x8171 ∧ t.cpu.countdown = 4 := by decide

theorem test_bpl_V122 :
    let t := ran (vectorState 0xFFF0 [0x10, 0x7F] 0x00 0x00 0x00 0xFD 0x20 [])
    t.cpu.pc = 0x0071 ∧ t.cpu.countdown = 4 := by decide

theorem test_bvc_V118 :
    let t := ran (vectorState 0x8000 [0x50, 0x10] 0x00 0x00 0x00 0xFD 0x20 [])
    t.cpu.pc = 0x8012 ∧ t.cpu.countdown = 3 := by decide

theorem test_bvs_V119 :
    let t := ran (vectorState 0x8000 [0x70, 0x10] 0x00 0x00 0x00 0xFD 0x60 [])
    t.cpu.pc = 0x8012 ∧ t.cpu.countdown = 3 := by decide

theorem test_bvs_V120 :
    let t := ran (vectorState 0x8000 [0x70, 0x10] 0x00 0x00 0x00 0xFD 0x20 [])
    t.cpu.pc = 0x8002 ∧ t.cpu.countdown = 2 := by decide

theorem test_jmp_ind_V16 :
    let t := ran (vectorState 0x8000 [0x6C, 0xFF, 0x02] 0x00 0x00 0x00 0xFD 0x20 [(0x0200, 0x12), (0x02FF, 0x34),
      (0x0300, 0x56)])
    t.cpu.pc = 0x1234 ∧ t.cpu.countdown = 5 := by decide

theorem test_jmp_abs_V123 :
    let t := ran (vectorState 0x8000 [0x4C, 0x34, 0x12] 0x00 0x00 0x00 0xFD 0x20 [])
    t.cpu.pc = 0x1234 ∧ t.cpu.s = 0xFD ∧ t.cpu.countdown = 3 := by decide

theorem test_jsr_V125 :
    let t := ran (vectorState 0x80FE [0x20, 0x00, 0x90] 0x00 0x00 0x00 0x00 0x20 [])
    (t.busRead 0x0100).1 = 0x81 ∧ (t.busRead 0x01FF).1 = 0x00 ∧ t.cpu.pc = 0x9000 ∧ t.cpu.s = 0xFE ∧
      t.cpu.countdown = 6 := by decide

theorem test_rts_V127 :
    let t := ran (vectorState 0x8010 [0x60] 0x00 0x00 0x00 0xFB 0x20 [(0x01FC, 0xFF), (0x01FD, 0xFF)])
    t.cpu.pc = 0x0000 ∧ t.cpu.s = 0xFD ∧ t.cpu.countdown = 6 := by decide

/-! Stack, flags, system: vectors of 95_test_vectors.md, by their numbers there. -/

theorem test_pha_V128 :
    let t := ran (vectorState 0x8000 [0x48] 0x42 0x00 0x00 0xFD 0x20 [])
    (t.busRead 0x01FD).1 = 0x42 ∧ t.cpu.s = 0xFC ∧ t.cpu.countdown = 3 := by decide

theorem test_php_V131 :
    let t := ran (vectorState 0x8000 [0x08] 0x00 0x00 0x00 0xFD 0xEF [])
    (t.busRead 0x01FD).1 = 0xFF ∧ t.cpu.s = 0xFC ∧ t.cpu.p = 0xEF ∧ t.cpu.countdown = 3 := by decide

theorem test_pla_V133 :
    let t := ran (vectorState 0x8000 [0x68] 0x00 0x00 0x00 0xFF 0x20 [(0x0100, 0x80)])
    t.cpu.a = 0x80 ∧ t.cpu.s = 0x00 ∧ t.cpu.p = 0xA0 ∧ t.cpu.countdown = 4 := by decide

theorem test_plp_V134 :
    let t := ran (vectorState 0x8000 [0x28] 0x00 0x00 0x00 0xFC 0x20 [(0x01FD, 0xDF)])
    t.cpu.s = 0xFD ∧ t.cpu.p = 0xFF ∧ t.cpu.countdown = 4 := by decide

theorem test_clc_V136 :
    let t := ran (vectorState 0x8000 [0x18] 0x00 0x00 0x00 0xFD 0xFF [])
    t.cpu.p = 0xFE ∧ t.cpu.countdown = 2 := by decide

theorem test_sec_V137 :
    let t := ran (vectorState 0x8000 [0x38] 0x00 0x00 0x00 0xFD 0x20 [])
    t.cpu.p = 0x21 ∧ t.cpu.countdown = 2 := by decide

theorem test_cli_V138 :
    let t := ran (vectorState 0x8000 [0x58] 0x00 0x00 0x00 0xFD 0xFF [])
    t.cpu.p = 0xFB ∧ t.cpu.countdown = 2 := by decide

theorem test_sei_V139 :
    let t := ran (vectorState 0x8000 [0x78] 0x00 0x00 0x00 0xFD 0x20 [])
    t.cpu.p = 0x24 ∧ t.cpu.countdown = 2 := by decide

theorem test_cld_V140 :
    let t := ran (vectorState 0x8000 [0xD8] 0x00 0x00 0x00 0xFD 0xFF [])
    t.cpu.p = 0xF7 ∧ t.cpu.countdown = 2 := by decide

theorem test_sed_V141 :
    let t := ran (vectorState 0x8000 [0xF8] 0x00 0x00 0x00 0xFD 0x20 [])
    t.cpu.p = 0x28 ∧ t.cpu.countdown = 2 := by decide

theorem test_clv_V142 :
    let t := ran (vectorState 0x8000 [0xB8] 0x00 0x00 0x00 0xFD 0xFF [])
    t.cpu.p = 0xBF ∧ t.cpu.countdown = 2 := by decide

theorem test_nop_V143 :
    let t := ran (vectorState 0x8000 [0xEA] 0x11 0x00 0x00 0xFD 0xA3 [])
    t.cpu.a = 0x11 ∧ t.cpu.p = 0xA3 ∧ t.cpu.pc = 0x8001 ∧ t.cpu.countdown = 2 := by decide

theorem test_brk_V145 :
    let t := ran (withIrqVector (vectorState 0x8000 [0x00, 0xFF] 0x00 0x00 0x00 0xFD 0xEB []))
    (t.busRead 0x01FD).1 = 0x80 ∧ (t.busRead 0x01FC).1 = 0x02 ∧ (t.busRead 0x01FB).1 = 0xFF ∧ t.cpu.pc = 0x9000 ∧
      t.cpu.s = 0xFA ∧ t.cpu.p = 0xEF ∧ t.cpu.countdown = 7 := by decide

theorem test_rti_V147 :
    let t := ran (vectorState 0x9000 [0x40] 0x00 0x00 0x00 0xFA 0x20 [(0x01FB, 0xDF), (0x01FC, 0xCD), (0x01FD, 0xAB)])
    t.cpu.pc = 0xABCD ∧ t.cpu.s = 0xFD ∧ t.cpu.p = 0xEF ∧ t.cpu.countdown = 6 := by decide

theorem test_xxx_V149 :
    let t := ran (vectorState 0x8000 [0x03, 0x12, 0x34] 0x11 0xFF 0x00 0xFD 0xA3 [])
    t.cpu.a = 0x11 ∧ t.cpu.x = 0xFF ∧ t.cpu.p = 0xA3 ∧ t.cpu.pc = 0x8001 ∧ t.cpu.countdown = 8 := by decide

theorem test_unofficialNop_V153 :
    let t := ran (vectorState 0x8000 [0x1C, 0x12, 0x34] 0x11 0xFF 0x00 0xFD 0xA3 [])
    t.cpu.a = 0x11 ∧ t.cpu.x = 0xFF ∧ t.cpu.p = 0xA3 ∧ t.cpu.pc = 0x8001 ∧ t.cpu.countdown = 4 := by decide

/-! ## The buses (vectors B1 to B9, M1 to M4) -/

theorem test_ram_mirrors_B1 :
    let t := State.reset.busWrite 0x0000 0x11
    (t.busRead 0x0800).1 = 0x11 ∧ (t.busRead 0x1800).1 = 0x11 ∧
    ((State.reset.busWrite 0x1FFF 0x22).busRead 0x07FF).1 = 0x22 := by decide

theorem test_unmapped_B3_B4 :
    State.reset.busRead 0x4016 = (0x00, State.reset) ∧ State.reset.busWrite 0x5000 0x33 = State.reset := by decide

theorem test_rom_mirror_B5_B6 :
    let one : State := { State.reset with prg := [(0, 0xEA)] }
    let two : State := { one with cfg := { Config.default with prgBanks := .two } }
    (one.busRead 0xC000).1 = 0xEA ∧ (two.busRead 0x8000).1 = 0xEA ∧ (two.busRead 0xC000).1 = 0x00 ∧
    one.busWrite 0x8000 0x55 = one := by decide

theorem test_port_mirror_B8 :
    (State.reset.busWrite 0x3456 0x12).ppu.t = 0x1200 ∧ (State.reset.busWrite 0x3456 0x12).ppu.w = true := by decide

theorem test_status_read_B9 :
    let s := State.reset.setPpu { State.reset.ppu with verticalBlank := true, dataBuf := 0xFF }
    (s.busRead 0x2002).1 = 0x9F ∧ ((s.busRead 0x2002).2.busRead 0x2002).1 = 0x1F := by decide

theorem test_palette_repeats_M1_M4 :
    let t := State.reset.ppuWrite 0x3F21 0xFF
    t.ppuRead 0x3F01 = 0xFF ∧ t.ppuRead 0x7F01 = 0xFF ∧
    (State.reset.ppuWrite 0x3F00 0xFF).ppuRead 0x3F00 = 0xFF := by decide

theorem test_palette_folds_T7 :
    (State.reset.ppuWrite 0x3F10 0x2A).ppuRead 0x3F00 = 0x2A ∧ (State.reset.ppuWrite 0x3F18 0x16).ppuRead 0x3F08 = 0x16 ∧
    (State.reset.ppuWrite 0x3F11 0x09).ppuRead 0x3F01 = 0x00 := by decide

theorem test_nametables_T8_M2 :
    let v : State := { State.reset with cfg := { Config.default with mirror := .vertical } }
    (State.reset.ppuWrite 0x2005 0xA1).ppuRead 0x2405 = 0xA1 ∧ (State.reset.ppuWrite 0x2005 0xA1).ppuRead 0x2805 = 0x00 ∧
    (v.ppuWrite 0x2005 0xA1).ppuRead 0x2405 = 0x00 ∧ (v.ppuWrite 0x2005 0xA1).ppuRead 0x2805 = 0xA1 ∧
    (v.ppuWrite 0x3EFF 0x44).ppuRead 0x2EFF = 0x44 := by decide

theorem test_chr_rom_M3 : (State.reset.ppuWrite 0x0010 0x55).ppuRead 0x0010 = 0x00 := by decide

/-! ## The ports (vectors of sequence S) -/

/-- A machine with these PPU registers. -/
def portState (v t : Loopy) (fineX : BitVec 3) (w : Bool) (buf ctrl : Byte) : State :=
  State.reset.setPpu { State.reset.ppu with v := v, t := t, fineX := fineX, w := w, dataBuf := buf, ctrl := ctrl }

theorem test_control_write_S21 :
    (portState 0x2023 0x2000 0 false 0 4).busWrite 0x2000 0x03 = portState 0x2023 0x2C00 0 false 0 3 := by decide

theorem test_first_scroll_S22 :
    (portState 0x2023 0x2C00 0 false 0 3).busWrite 0x2005 0x7D = portState 0x2023 0x2C0F 5 true 0 3 := by decide

theorem test_second_scroll_S23 :
    (portState 0x2023 0x2C0F 5 true 0 3).busWrite 0x2005 0x5E = portState 0x2023 0x6D6F 5 false 0 3 := by decide

theorem test_first_address_S26 :
    (portState 0x2023 0x6D61 0 false 0 3).busWrite 0x3456 0x12 = portState 0x2023 0x1261 0 true 0 3 := by decide

theorem test_second_address_S27 :
    (portState 0x2023 0x1261 0 true 0 3).busWrite 0x2006 0x34 = portState 0x1234 0x1234 0 false 0 3 := by decide

theorem test_data_read_S20 :
    (portState 0x2003 0x2000 0 false 0 4).busRead 0x2007 = (0x00, portState 0x2023 0x2000 0 false 0 4) := by decide

theorem test_data_write_S41 :
    let t := (portState 0x3FFF 0x33FF 0 false 0 0).busWrite 0x2007 0x30
    t.ppu.v = 0x4000 ∧ t.ppu.pal = [(0x1F, 0x30)] := by decide

theorem test_palette_read_S42 :
    let t := ((portState 0x7FFF 0x33FF 0 false 0 0).ppuWrite 0x3FFF 0x30).busRead 0x2007
    t.1 = 0x30 ∧ t.2.ppu.v = 0x0000 ∧ t.2.ppu.dataBuf = 0x30 := by decide

/-! ## Interrupts and reset (vectors I1 to I4, T2) -/

theorem test_interrupt_I1 :
    let t := (withIrqVector (vectorState 0x8005 [] 0 0 0 0xFD 0x20 [])).interrupt
    t.ram = [(0x1FB, 0x24), (0x1FC, 0x05), (0x1FD, 0x80)] ∧ t.cpu.s = 0xFA ∧ t.cpu.p = 0x24 ∧ t.cpu.pc = 0x9000 ∧
    t.cpu.countdown = 7 := by decide

theorem test_interrupt_masked_I2 :
    let s := vectorState 0x9000 [] 0 0 0 0xFA 0x24 []
    s.interrupt = s := by decide

theorem test_nmi_I3 :
    let s := ((vectorState 0x8005 [] 0 0 0 0xFD 0xA4 []).placeByte 0xFFFA 0x00).placeByte 0xFFFB 0x90
    let t := s.nonMaskableInterrupt
    t.ram = [(0x1FB, 0xA4), (0x1FC, 0x05), (0x1FD, 0x80)] ∧ t.cpu.p = 0xA4 ∧ t.cpu.pc = 0x9000 ∧
    t.cpu.countdown = 8 := by decide

theorem test_interrupt_stack_wraps_I4 :
    let t := (((vectorState 0x1234 [] 0 0 0 0x01 0x30 []).placeByte 0xFFFE 0x00).placeByte 0xFFFF 0xC0).interrupt
    (t.busRead 0x0101).1 = 0x12 ∧ (t.busRead 0x0100).1 = 0x34 ∧ (t.busRead 0x01FF).1 = 0x24 ∧ t.cpu.s = 0xFE ∧
    t.cpu.pc = 0xC000 := by decide

theorem test_reset_T2 :
    let s := ((vectorState 0x1234 [] 1 2 3 4 0xFF []).placeByte 0xFFFC 0x34).placeByte 0xFFFD 0x92
    let t := s.busReset
    t.cpu.a = 0 ∧ t.cpu.x = 0 ∧ t.cpu.y = 0 ∧ t.cpu.s = 0xFD ∧ t.cpu.p = 0x20 ∧ t.cpu.pc = 0x9234 ∧
    t.cpu.countdown = 8 := by decide

/-! ## Ticks and dots (vectors K2, Q2, T6) -/

/-- The machine at a given dot. -/
def dotState (scanline : Int) (dot : Nat) (ctrl mask : Byte) : State :=
  { State.reset with ppu := { State.reset.ppu with scanline := scanline, dot := dot, ctrl := ctrl, mask := mask } }

/-- A tick with a CPU clock in which an instruction is fetched: A9 80 leaves 1 of its 2 cycles. -/
theorem test_tick_fetches_K2 :
    let t := stateOr State.reset (step (vectorState 0x8000 [0xA9, 0x80] 0 0 0 0xFD 0x20 []))
    t.cpu.a = 0x80 ∧ t.cpu.pc = 0x8002 ∧ t.cpu.countdown = 1 ∧ t.sysCounter = 1 ∧ t.ppu.dot = 1 := by decide

theorem test_tick_without_cpu_clock_K1 :
    let s := (vectorState 0x8000 [0xA9, 0x80] 0 0 0 0xFD 0x20 []).setSysCounter 2
    (stateOr State.reset (step s)).cpu = s.cpu := by decide

theorem test_vblank_tick_enters_nmi_Q2 :
    let t := stateOr State.reset (step (dotState 241 1 0x80 0))
    t.ppu.verticalBlank = true ∧ t.ppu.nmiPending = false ∧ t.cpu.s = 0xFA ∧ t.cpu.countdown = 8 := by decide

theorem test_frame_wraps_T6 :
    let p := (dotState 260 340 0 0x18).ppuClock.ppu
    p.scanline = -1 ∧ p.dot = 0 ∧ p.frameComplete = true := by decide

theorem test_prerender_clears_vblank :
    (((dotState (-1) 1 0 0).setPpu { (dotState (-1) 1 0 0).ppu with verticalBlank := true }).ppuClock).ppu.verticalBlank =
      false := by decide

theorem test_scroll_wraps_R341_R342 :
    scrollXIncremented 0x001F = 0x0400 ∧ scrollYIncremented 0x73A0 = 0x0800 ∧ scrollYIncremented 0x73E0 = 0x0000 ∧
    scrollYIncremented 0x0000 = 0x1000 := by decide

theorem test_attribute_address_R337 : attributeAddr 0x0FFF = 0x2FFF ∧ attributeAddr 0x0000 = 0x23C0 := by decide

theorem test_pixel_is_palette_byte_R349 :
    ((dotState 0 1 0 0).setPpu { (dotState 0 1 0 0).ppu with pal := [(0, 0xCF)] }).ppuClock.ppu.fb = [(0, 0x0F)] := by
  decide

/-- The instruction placed by `withFetchWord` is what the next step runs, right after reset. -/
theorem test_with_fetch_word :
    let t := stateOr State.reset (step (State.reset.withFetchWord 16 0x80A9))
    t.cpu.a = 0x80 ∧ t.cpu.opcode = 0xA9 ∧ t.cpu.pc = 0x0002 := by decide


/-! ## Witnesses: concrete values that meet the hypotheses of each statement that has some -/

/-- A run whose table gives byte 0x80 the mode ABX and byte 0x1C the mode IMM. -/
def otherTable : Config :=
  { Config.default with unofficial := [(0x80, ⟨.xxx, .ABX, 4⟩), (0x1C, ⟨.nop, .IMM, 2⟩)] }

theorem test_witness_DecodingAnEncodedInstructionGivesItBack :
    (Instr.lda (.imm 0x42)).wellFormedIn Config.default = true ∧ (Instr.brk).wellFormedIn Config.default = true ∧
    (Instr.xxx 0x80 (.abx 0x1234)).wellFormedIn otherTable = true ∧
    (Instr.unofficialNop 0x1C .pad).wellFormedIn otherTable = true ∧
    (Instr.sta (.imm 0)).wellFormedIn Config.default = false := by decide

theorem test_witness_EveryOpcodeByteDecodes :
    decodeIn otherTable [0x80, 0x34, 0x12] = .ok (.xxx 0x80 (.abx 0x1234), []) ∧
    (Instr.xxx 0x80 (.abx 0x1234)).operand ≠ .pad ∧ (Instr.brk).operand = .pad := by
  refine ⟨rfl, by decide, rfl⟩

theorem test_witness_AddressingModesWriteOnlyTheirResult : ∀ p, Operand.izy 0x20 ≠ .ind p := by
  intro p h; cases h

theorem test_witness_FetchIsOneBusReadAtTheEffectiveAddress :
    Operand.zp0 0x20 ≠ .imp ∧ (∀ b, Operand.zp0 0x20 ≠ .imm b) ∧ ∀ p, Operand.zp0 0x20 ≠ .ind p := by
  refine ⟨by decide, fun b h => ?_, fun p h => ?_⟩ <;> cases h

theorem test_witness_RamIsMirroredEveryTwoKilobytes :
    (0x1FFF#16).toNat < 0x2000 ∧ (0x1FFF#16).toNat % 0x800 = (0x07FF#16).toNat % 0x800 ∧
    (0x0000#16).toNat % 0x800 ≠ (0x07FF#16).toNat % 0x800 ∧
    (0x2000 ≤ (0x4000#16).toNat ∧ ¬ (0x2000 ≤ (0x4000#16).toNat ∧ (0x4000#16).toNat ≤ 0x3FFF)) ∧
    State.reset.cfg.prgWritable = false := by decide

/-- Two writable program banks. -/
def writableRom : State :=
  { State.reset with cfg := { Config.default with prgBanks := .two, prgWritable := true, chrWritable := true } }

theorem test_witness_ProgramRomAndUnmappedWindow :
    (0x8000 ≤ (0x8000#16).toNat ∧ State.reset.cfg.prgWritable = false) ∧ writableRom.cfg.prgWritable = true ∧
    ¬ isPort 0xFFFF ∧ sameByte State.reset.cfg 0x8000 0xC000 ∧ ¬ sameByte writableRom.cfg 0x8000 0xC000 ∧
    sameByte writableRom.cfg 0xFFFF 0xFFFF ∧ (0x4000 ≤ (0x7FFF#16).toNat ∧ (0x7FFF#16).toNat < 0x8000) := by
  simp [isPort, sameByte, writableRom, State.reset, Config.default]

theorem test_witness_OnlyTwoPortsHaveReadSideEffects :
    ¬ sideEffectPort 0x2001 ∧ ¬ sideEffectPort 0x4002 ∧ (isPort 0x3FFA ∧ (0x3FFA#16).toNat % 8 = 2) ∧
    (isPort 0x3FFF ∧ (0x3FFF#16).toNat % 8 = 7) ∧ isPort 0x2000 := by
  unfold sideEffectPort isPort; decide

theorem test_witness_ABusWriteStoresOneByte :
    (storable State.reset.cfg 0x1FFF ∧ sameByte State.reset.cfg 0x1FFF 0x07FF) ∧
    (storable writableRom.cfg 0x8000 ∧ sameByte writableRom.cfg 0x8000 0x8000) ∧
    (¬ isPort 0x8000 ∧ ¬ (storable State.reset.cfg 0x8000 ∧ sameByte State.reset.cfg 0x8000 0x8000)) ∧
    (isPort 0x2006 ∧ (0x2006#16).toNat % 8 ≠ 7) ∧ ¬ isPort 0x4007 := by
  simp [storable, isPort, sameByte, writableRom, State.reset, Config.default]

theorem test_witness_PpuReadAfterPpuWrite :
    (ppuStorable writableRom.cfg 0x1FFF ∧ samePpuByte writableRom.cfg 0x1FFF 0x5FFF) ∧
    (ppuStorable State.reset.cfg 0x2005 ∧ samePpuByte State.reset.cfg 0x2005 0x2405) ∧
    samePpuByte State.reset.cfg 0x3EFF 0x2EFF ∧ samePpuByte State.reset.cfg 0x3F10 0x3F00 ∧
    samePpuByte State.reset.cfg 0x3F1F 0x3FFF ∧ ¬ samePpuByte State.reset.cfg 0x3F11 0x3F01 ∧
    ¬ samePpuByte State.reset.cfg 0x2005 0x2805 ∧ ¬ ppuStorable State.reset.cfg 0x1FFF := by
  simp [ppuStorable, samePpuByte, writableRom, State.reset, Config.default]

theorem test_witness_PlainPortsReadAndWriteThrough :
    (3 ≤ (3#3).toNat ∧ (3#3).toNat ≤ 6) ∧ (3 ≤ (6#3).toNat ∧ (6#3).toNat ≤ 6) ∧
    (2 ≤ (2#3).toNat ∧ (2#3).toNat ≤ 4) ∧ (2 ≤ (4#3).toNat ∧ (4#3).toNat ≤ 4) ∧
    State.reset.cfg.ctrlWriteCopiesNt = true ∧
    ({ Config.default with ctrlWriteCopiesNt := false }).ctrlWriteCopiesNt = false := by decide

/-- The latch at 0; the latch at 1 with bit 14 of `t` set, where an address write keeps that bit (R309). -/
theorem test_witness_TwoStepWritesSetScrollAndAddress :
    (portState 0x2023 0x6D61 0 false 0 3).ppu.w = false ∧ (portState 0x2023 0x6D61 0 true 0 3).ppu.w = true ∧
    ((portState 0x2023 0x6D61 0 true 0 3).ppuPortWrite 6 0xFF).ppu.v = 0x6DFF := by decide

theorem test_witness_ScrollAndAddressShareTheLatch :
    (portState 0x2023 0x6D61 0 false 0 3).ppu.w = false ∧ (7#3) ≠ 2 ∧ (7#3) ≠ 5 ∧ (7#3) ≠ 6 := by decide

theorem test_witness_TheDataPortReadsBufferedAndIncrements :
    ppuStorable State.reset.cfg (portState 0x3F10 0 0 false 0 4).ppu.vAddr ∧
    samePpuByte State.reset.cfg (portState 0x3F10 0 0 false 0 4).ppu.vAddr 0x3F00 ∧
    ¬ (ppuStorable State.reset.cfg (portState 0x1FFF 0 0 false 0 4).ppu.vAddr) := by
  simp [ppuStorable, samePpuByte, portState, State.setPpu, Ppu.vAddr, State.reset, Config.default]

theorem test_witness_ShiftsAndRotatesMoveOneBit : Operand.imp = .imp ∧ Operand.zp0 0x10 ≠ .imp := by decide

/-- A taken branch inside a page, at the boundary, and one across it; an untaken branch. -/
theorem test_witness_BranchesGoWhereTheirFlagSays :
    let inside := vectorState 0x8080 [] 0 0 0 0xFD 0x20 []
    let t := stateOr inside (exec (.bcc 0x7F) inside)
    let u := stateOr inside (exec (.bcc 0x80) (inside.setPc 0x807F))
    t.cpu.pc = 0x80FF ∧ t.cpu.countdown = 3 ∧ u.cpu.pc = 0x7FFF ∧ u.cpu.countdown = 4 ∧ inside.flag .C = false := by
  decide

theorem test_witness_NopAndPlaceholdersChangeNothing : ∀ p, Operand.imp ≠ .ind p := by
  intro p h; cases h

theorem test_witness_NmiAndIrqEnterThroughTheirVectors :
    State.reset.flag .I = false ∧ (State.reset.setFlag .I true).flag .I = true := by decide

theorem test_witness_RtiAfterEntryReturnsWithInterruptsDisabled :
    State.reset.flag .I = false ∧ State.reset.interrupt = State.reset.interrupt ∧
    State.reset.cfg.brkReturnOffset = .two := by decide

/-- The header of an accepted image: one bank, vertical mirroring, no trainer. -/
def goodHeader : List Byte := [0x4E, 0x45, 0x53, 0x1A, 1, 1, 1, 0] ++ List.replicate 8 0

theorem test_witness_AcceptedImagesMakeTheirCartridge :
    let image : List Byte := goodHeader ++ List.replicate 24576 0xEA
    image.take 4 = [0x4E, 0x45, 0x53, 0x1A] ∧ image.getD 4 0 = 1 ∧ image.getD 5 0 = 1 ∧
    (image.getD 7 0).toNat / 16 * 16 + (image.getD 6 0).toNat / 16 = 0 ∧ (image.getD 6 0).getLsbD 2 = false ∧
    16 + 1 * 16384 + 8192 ≤ image.length ∧ goodHeader.length < 16 + 1 * 16384 + 8192 := by
  refine ⟨rfl, rfl, rfl, rfl, rfl, ?_, by decide⟩
  rw [List.length_append, List.length_replicate, show goodHeader.length = 16 from rfl]

theorem test_witness_launch_without_cartridge : ({ Launch.blank with cartridge := none }).cartridge = none := rfl

theorem test_witness_AFrameIs89342Steps :
    (dotState (-1) 0 0 0).ppu.inFrame ∧ (dotState 260 340 0 0).ppu.inFrame ∧ (dotState 260 340 0 0).ppu.position = 89341 := by
  unfold Ppu.inFrame; decide

theorem test_witness_VerticalBlankAndNmiRequest :
    let s := (dotState 241 1 0x80 0).ppu
    s.scanline = 241 ∧ s.dot = 1 ∧ s.ctrl.getLsbD 7 = true ∧ State.reset.cfg.ppuClearVblankAtPrerender = true := by decide

/-- Registers at each wrap: coarse X 31, fine Y 7 with coarse Y 29, 31 and another. -/
theorem test_witness_ScrollIncrementsWrapAndToggle :
    (0x08#8).getLsbD 3 = true ∧ (0x10#8).getLsbD 4 = true ∧ coarseX 0x001F = 31 ∧ coarseX 0x001E ≠ 31 ∧
    (fineY 0x6000).toNat < 7 ∧ (fineY 0x73A0).toNat = 7 ∧ coarseY 0x73A0 = 29 ∧ coarseY 0x73E0 = 31 ∧
    coarseY 0x7380 ≠ 29 ∧ coarseY 0x7380 ≠ 31 := by decide

theorem test_witness_TransfersCopyTheScrollFields :
    (dotState 0 257 0 0x08).ppu.rendering = true ∧ (dotState 0 257 0 0).ppu.rendering = false := by decide

/-- A fetch-window dot with key 0, with the background on, in both variants of the shift: the shift comes after
the load in one and before it in the other (R348). -/
theorem test_ShiftRegistersLoadAndShift :
    let s := dotState 0 9 0 0x08
    let p := { s.ppu with bgShifterPatternLo := 0x1234, bgNextTileLsb := 0xAB }
    let late := { s with ppu := p }
    let early := { s with ppu := p, cfg := { s.cfg with ppuShiftEveryDot := false } }
    late.ppuClock.ppu.bgShifterPatternLo = 0x2556 ∧ early.ppuClock.ppu.bgShifterPatternLo = 0x24AB := by decide

theorem test_witness_TheCompositorWritesOnePixel :
    255 < 256 ∧ 239 < 240 ∧ (dotState 239 256 0 0x08).ppu.dot = 255 + 1 ∧
    (dotState 239 256 0 0x08).ppu.scanline = 239 := by decide

theorem test_witness_AStepRunsTheDecodedInstruction :
    let s := vectorState 0x8000 [0x7D, 0x34, 0x12] 0 0 0 0xFD 0x20 []
    s.cpu.countdown = 0 ∧ s.sysCounter % 3 = 0 ∧ s.ppuClock.busRead 0x8000 = (0x7D, s.ppuClock) ∧
    s.ppuClock.busRead 0x8001 = (0x34, s.ppuClock) ∧ s.ppuClock.busRead 0x8002 = (0x12, s.ppuClock) ∧
    (decodeIn s.cfg [0x7D, 0x34, 0x12]).toOption = some (.adc (.abx 0x1234), []) := by decide

theorem test_witness_AStepWithoutAFetchOnlyCounts :
    (State.reset.setSysCounter 1).ppu.nmiPending = false ∧ (State.reset.setSysCounter 1).sysCounter % 3 ≠ 0 ∧
    State.reset.sysCounter % 3 = 0 ∧ State.reset.cpu.countdown ≠ 0 ∧
    ¬ (State.reset.ppu.scanline = 241 ∧ State.reset.ppu.dot = 1 ∧ State.reset.ppu.ctrl.getLsbD 7 = true) ∧
    ((dotState 241 1 0x7F 0).ppu.scanline = 241 ∧ (dotState 241 1 0x7F 0).ppu.dot = 1 ∧
      (dotState 241 1 0x7F 0).ppu.ctrl.getLsbD 7 = false) := by decide

theorem test_witness_TheNmiIsDeliveredInItsTick :
    (dotState 241 1 0x80 0).ppu.scanline = 241 ∧ (dotState 241 1 0x80 0).ppu.dot = 1 ∧
    (dotState 241 1 0x80 0).ppu.ctrl.getLsbD 7 = true := by decide

/-- A state in the middle of a frame, with listed memory, in the invariant. -/
def midFrame : State :=
  { (dotState 100 200 0x80 0x1E) with
    ram := [(0, 0x11), (0x7FF, 0x22)], prg := [(0, 0xEA)], sysCounter := 34641
    cpu := { State.reset.cpu with p := 0xA4, countdown := 3 } }

theorem test_witness_EveryHostCallKeepsTheInvariant : Inv midFrame := by
  refine ⟨⟨?_, ?_, ?_, ?_, ?_, ?_⟩, ⟨?_, ?_, ?_, ?_, ?_, ?_⟩, ?_, ?_, ?_⟩ <;> decide

/-- A launch whose work RAM starts with the byte 0x5A. -/
def otherLaunch : Launch := { Launch.blank with ram0 := [0x5A] }

theorem test_witness_EveryReachableStateHasTheInvariant :
    otherLaunch.valid = true ∧ ∃ s, State.launch otherLaunch = .ok s ∧ s.ram = [(0, 0x5A)] ∧ Reachable s :=
  ⟨rfl, _, rfl, rfl, .launch otherLaunch _ rfl rfl⟩

theorem test_witness_ALaunchPutsItsContentsInTheMemories :
    otherLaunch.cartridge = some { prgBanks := .one, mirror := .horizontal, prg := [], chr := [] } ∧
    (0x0 < 2048 ∧ otherLaunch.ram0.getD 0 0 = 0x5A ∧ otherLaunch.ram0.getD 2047 0 = 0) := by decide

end Sys2Proof.Tests
end

section
/-! SUPPORT. The part of the machine's invariant that lies outside the CPU: every elementary effect of an
instruction and every dot keeps it, also while an NMI is requested and not yet delivered. -/

namespace Sys2Proof.Machine

/-- The PPU with its NMI request dropped. -/
def Ppu.withoutNmi (p : Ppu) : Ppu := { p with nmiPending := false }

/-- The invariant but for the CPU and the NMI request: what holds also inside a tick. -/
structure DevicesOk (st : State) : Prop where
  memories : MemoriesOk st
  ppu : PpuOk st.ppu.withoutNmi
  cfg : st.cfg.valid = true

theorem withoutNmi_of_not_pending {p : Ppu} (h : p.nmiPending = false) : p.withoutNmi = p := by
  rw [Ppu.withoutNmi, ← h]

theorem Inv.devicesOk {s : State} (h : Inv s) : DevicesOk s :=
  ⟨h.memories, by rw [withoutNmi_of_not_pending h.ppu.nmiPending]; exact h.ppu, h.cfg⟩

/-- The invariant from its parts: devices, no NMI request, and the CPU's two facts. -/
theorem DevicesOk.inv {s : State} (h : DevicesOk s) (hn : s.ppu.nmiPending = false) (hu : s.flag .U = true)
    (hc : s.cpu.countdown ≤ 8) : Inv s :=
  ⟨h.memories, by rw [← withoutNmi_of_not_pending hn]; exact h.ppu, hu, hc, h.cfg⟩

/-! ## Elementary effects -/

theorem Ppu.SameEngine.withoutNmi_ok {p q : Ppu} (h : Ppu.SameEngine p q) (hp : PpuOk p.withoutNmi) :
    PpuOk q.withoutNmi := by
  obtain ⟨hs, hd, ha, hz, ho, hn⟩ := hp
  rw [h]
  exact ⟨hs, hd, ha, hz, ho, hn⟩

/-- Register writes and bus accesses keep the devices' invariant. -/
theorem Effects.devicesOk {s t : State} (h : Effects s t) (hs : DevicesOk s) : DevicesOk t :=
  ⟨h.memories hs.memories, h.engine.withoutNmi_ok hs.ppu, by rw [h.cfg]; exact hs.cfg⟩

/-- Register writes and bus accesses neither request an NMI nor drop a request. -/
theorem Effects.nmiPending {s t : State} (h : Effects s t) : t.ppu.nmiPending = s.ppu.nmiPending := by
  rw [h.engine]

/-- Whatever comes from a state of the invariant by register writes and bus accesses has it again, once the
CPU's two facts hold. -/
theorem Effects.inv {s t : State} (h : Effects s t) (hs : Inv s) (hu : t.flag .U = true)
    (hc : t.cpu.countdown ≤ 8) : Inv t :=
  (h.devicesOk hs.devicesOk).inv (h.nmiPending.trans hs.ppu.nmiPending) hu hc

/-! ## A dot -/

/-- The two bits that `bgNextTileAttrib` takes (R337). -/
theorem attributeBits_lt (v : Loopy) (a : Byte) : (attributeBits v a).toNat < 4 := by
  unfold attributeBits
  simp only [BitVec.toNat_and]
  exact Nat.lt_of_le_of_lt Nat.and_le_right (by decide)

theorem fetchStep_attrib_lt {s : State} (h : s.ppu.bgNextTileAttrib.toNat < 4) :
    s.fetchStep.ppu.bgNextTileAttrib.toNat < 4 := by
  have he : s.earlyShift.ppu.bgNextTileAttrib = s.ppu.bgNextTileAttrib := by
    rw [earlyShift_eq]; split <;> rfl
  unfold State.fetchStep
  split
  · rw [fetchAction_eq]
    simp only [setPpu_ppu]
    split
    · exact attributeBits_lt _ _
    · rw [he]; exact h
  · exact h

theorem regionStep_attrib_lt {s : State} (h : s.ppu.bgNextTileAttrib.toNat < 4) :
    s.regionStep.ppu.bgNextTileAttrib.toNat < 4 := by
  unfold State.regionStep
  split
  · rw [transferYStep_eq, transferXStep_eq, incrementYStep_eq]
    exact fetchStep_attrib_lt (by rw [clearVblankStep_eq]; exact h)
  · exact h

/-- After vertical blank, compositor and counters `bgNextTileAttrib` is as the actions of the region leave it. -/
theorem ppuClock_attrib (s : State) :
    s.ppuClock.ppu.bgNextTileAttrib = s.regionStep.ppu.bgNextTileAttrib := by
  unfold State.ppuClock
  simp only [setPpu_ppu]
  rw [advanceCounters_keeps Ppu.bgNextTileAttrib (fun _ _ _ _ => rfl), compositeStep_eq]
  split <;> rw [vblankStep_eq] <;> rfl

theorem advanceCounters_scanline_range {p : Ppu} (h : -1 ≤ p.scanline ∧ p.scanline ≤ 260) :
    -1 ≤ p.advanceCounters.scanline ∧ p.advanceCounters.scanline ≤ 260 := by
  unfold Ppu.advanceCounters
  split
  · split
    · exact ⟨by simp, by simp⟩
    · simp only; omega
  · exact h

theorem advanceCounters_dot_le (p : Ppu) : p.advanceCounters.dot ≤ 340 := by
  unfold Ppu.advanceCounters
  split
  · split <;> simp
  · simp only; omega

/-- A dot keeps the devices' invariant; it may request an NMI. -/
theorem DevicesOk.ppuClock {s : State} (h : DevicesOk s) : DevicesOk s.ppuClock := by
  obtain ⟨hm, ⟨hs, _, ha, hz, ho, _⟩, hv⟩ := h
  have hl : s.regionStep.vblankStep.compositeStep.ppu.scanline = s.ppu.scanline := by
    rw [(dot_before_counters s).2]
  refine ⟨hm.ppuClock, ⟨?_, ?_, ?_, ?_, ?_, rfl⟩, by rw [ppuClock_cfg]; exact hv⟩
  · exact advanceCounters_scanline_range (by rw [hl]; exact hs)
  · exact advanceCounters_dot_le _
  · show s.ppuClock.ppu.bgNextTileAttrib.toNat < 4
    rw [ppuClock_attrib]; exact regionStep_attrib_lt ha
  · exact (ppuClock_spriteZeroHit s).trans hz
  · exact (ppuClock_spriteOverflow s).trans ho

end Sys2Proof.Machine
end

section
/-! SUPPORT. The CPU's two facts in the invariant: what every instruction, every CPU clock and every interrupt
entry makes of U and of the countdown (10_state.md R26, R29). -/

namespace Sys2Proof.Machine

/-- The answer is a next state with U set and a countdown of at most `n`. -/
def EndsWithin (n : Nat) (r : Result) : Prop := ∃ t, r = .next t ∧ t.flag .U = true ∧ t.cpu.countdown ≤ n

theorem carryValue_le (c : Bool) : carryValue c ≤ 1 := by cases c <;> decide

/-- A bound on the entries of an encoding table bounds the base cycles it gives. -/
theorem baseOf_le {n : Nat} {es : List Encoding} (h : ∀ e ∈ es, e.base ≤ n) (m : Mode) : baseOf es m ≤ n := by
  unfold baseOf
  cases hf : es.find? fun e => decide (e.mode = m) with
  | none => exact Nat.zero_le n
  | some e => exact h e (List.mem_of_find?_eq_some hf)

/-- An unofficial byte takes at most 8 cycles, by the run's table or by the default (R133, U1). -/
theorem unofficialEntry_base_le {c : Config} (hv : c.valid = true) (b : Byte) : (c.unofficialEntry b).base ≤ 8 := by
  unfold Config.unofficialEntry
  split
  next e he =>
    have hall : ∀ x ∈ c.unofficial, 1 ≤ x.2.base ∧ x.2.base ≤ 8 := by simpa [Config.valid] using hv
    obtain ⟨l₁, l₂, hl, _⟩ := List.lookup_eq_some_iff.1 he
    exact (hall (b, e) (by simp [hl])).2
  next => exact (default_entry_base b).2

/-- A branch takes two to four cycles (R230). -/
theorem branch_cycles_le (cond : Bool) (s : State) : 2 + (branchIf cond s).b ≤ 4 := by
  rw [branchIf_eq]
  split
  · have h := carryValue_le (crosses s.cpu.pc (s.cpu.pc + s.cpu.rel))
    simp only
    omega
  · exact Nat.le_add_right 2 2

/-- An instruction ends with U set; the two signals add one cycle to its base and branch cycles (R132). -/
theorem runInstr_endsWithin {base : Nat} {o : Operand} {op : State → OpResult} {s : State}
    (h : ∀ u, base + (op u).b ≤ 8) : EndsWithin 9 (runInstr base o op s) := by
  refine ⟨_, rfl, by simp, ?_⟩
  have hb := h (addrMode o s).2
  have hs := carryValue_le ((addrMode o s).1 && (op (addrMode o s).2).s2)
  rw [complete_countdown]
  omega

/-- Every instruction ends with U set and a countdown of at most 9 (R132, R133). -/
theorem exec_endsWithin (i : Instr) (s : State) (hv : s.cfg.valid = true) : EndsWithin 9 (exec i s) := by
  cases i <;> unfold exec
  case lda o | ldx o | ldy o | sta o | stx o | sty o | adc o | sbc o | and o | ora o | eor o | bit o | cmp o |
      cpx o | cpy o | inc o | dec o | asl o | lsr o | rol o | ror o | jmp o =>
    exact runInstr_endsWithin fun _ => baseOf_le (by decide) o.mode
  case bcc off | bcs off | beq off | bne off | bmi off | bpl off | bvc off | bvs off =>
    exact runInstr_endsWithin fun _ => (branch_cycles_le _ _).trans (by decide)
  case xxx b o | unofficialNop b o => exact runInstr_endsWithin fun _ => unofficialEntry_base_le hv b
  all_goals exact runInstr_endsWithin fun _ => by simp

/-- The CPU's part of a tick keeps U set and the countdown at most 8: an instruction's clock counts too
(R373). -/
theorem cpuPart_endsWithin {s : State} (hv : s.cfg.valid = true) (hu : s.flag .U = true)
    (hc : s.cpu.countdown ≤ 8) : EndsWithin 8 (cpuPart s) := by
  unfold cpuPart cpuClock
  split
  · split
    · have hf : s.fetchInstr.2.cfg.valid = true := by rw [(Effects.refl s).fetchInstr.cfg]; exact hv
      obtain ⟨t, ht, htu, htc⟩ := exec_endsWithin s.fetchInstr.1 s.fetchInstr.2 hf
      exact ⟨t.countClock, by rw [executeInstruction, ht]; rfl, htu, Nat.sub_le_sub_right htc 1⟩
    · exact ⟨s.countClock, rfl, hu, (Nat.sub_le _ 1).trans hc⟩
  · exact ⟨s, rfl, hu, hc⟩

/-- An interrupt entry leaves U set (R406). -/
theorem interruptEntry_unused (s : State) (v : Addr) (n : Nat) : (s.interruptEntry v n).flag .U = true := by
  simp [State.interruptEntry, State.jumpThrough, State.memRead16, push_eq]

/-- An interrupt entry of at most 8 cycles keeps the invariant. -/
theorem Inv.interruptEntry {s : State} (h : Inv s) (v : Addr) {n : Nat} (hn : n ≤ 8) :
    Inv (s.interruptEntry v n) :=
  ((Effects.refl s).interruptEntry v n).inv h (interruptEntry_unused s v n) hn

end Sys2Proof.Machine
end

section
/-! The host's calls keep the machine's invariant (52_system_clock.md R370, R381). -/

namespace Sys2Proof.Machine

theorem Inv.setSysCounter {s : State} (h : Inv s) (n : Nat) : Inv (s.setSysCounter n) := by
  obtain ⟨hm, hp, hu, hc, hv⟩ := h
  exact ⟨hm.congr rfl rfl rfl rfl rfl rfl rfl, hp, hu, hc, hv⟩

theorem Inv.clearFrameComplete {s : State} (h : Inv s) : Inv s.clearFrameComplete := by
  obtain ⟨hm, ⟨hs, hd, ha, hz, ho, hn⟩, hu, hc, hv⟩ := h
  exact ⟨hm.congr rfl rfl rfl rfl rfl rfl rfl, ⟨hs, hd, ha, hz, ho, hn⟩, hu, hc, hv⟩

theorem Inv.interrupt {s : State} (h : Inv s) : Inv s.interrupt := by
  unfold State.interrupt
  split
  · exact h
  · exact h.interruptEntry _ (by decide)

/-- After a reset U is set: P is 0x20 (R430). -/
theorem cpuReset_unused (s : State) : s.cpuReset.flag .U = true := by
  simp [State.flag, State.cpuReset, Cpu.afterReset, flagOf, Flag.index]

/-- A reset sets the CPU's two facts itself: only the devices have to be in order before (R430). -/
theorem DevicesOk.busReset {s : State} (h : DevicesOk s) (hn : s.ppu.nmiPending = false) : Inv s.busReset := by
  have e : Effects s s.cpuReset := (Effects.refl s).cpuReset
  exact ((e.devicesOk h).inv (e.nmiPending.trans hn) (cpuReset_unused s) (Nat.le_refl 8)).setSysCounter 0

/-- NMI delivery takes the request, so the whole invariant holds after it (R376). -/
theorem DevicesOk.deliverNmi {s : State} (h : DevicesOk s) (hu : s.flag .U = true) (hc : s.cpu.countdown ≤ 8) :
    Inv s.deliverNmi := by
  unfold State.deliverNmi
  split
  · have ht : DevicesOk (s.setPpu { s.ppu with nmiPending := false }) :=
      ⟨h.memories.congr rfl rfl rfl rfl rfl rfl rfl, h.ppu, h.cfg⟩
    exact (ht.inv rfl hu hc).interruptEntry _ (Nat.le_refl 8)
  next hn => exact h.inv (by simpa using hn) hu hc

/-- A tick: the dot may request an NMI, the CPU clock leaves the request standing, and the delivery takes it. -/
theorem Inv.step {s : State} (h : Inv s) : ∃ t, step s = .next t ∧ Inv t := by
  obtain ⟨u, hu, huu, huc⟩ := cpuPart_endsWithin (s := s.ppuClock) (by rw [ppuClock_cfg]; exact h.cfg)
    (by rw [State.flag, ppuClock_cpu]; exact h.unused) (by rw [ppuClock_cpu]; exact h.countdown)
  obtain ⟨u', hu', e⟩ := cpuPart_effects s.ppuClock
  obtain rfl : u = u' := by rw [hu] at hu'; exact Host.Outcome.next.inj hu'
  refine ⟨u.endTick, by simp only [Machine.step, busClock, hu, onNext], ?_⟩
  exact ((e.devicesOk h.devicesOk.ppuClock).deliverNmi huu huc).setSysCounter _

/-- Settles O58: each host call keeps the invariant, and a tick does because the request that its dot may raise
is taken before the tick ends. -/
theorem everyHostCallKeepsTheInvariant : Obligations.EveryHostCallKeepsTheInvariant := by
  intro c s h
  cases c with
  | clock => exact h.step
  | reset => exact ⟨_, rfl, h.devicesOk.busReset h.ppu.nmiPending⟩
  | interrupt => exact ⟨_, rfl, h.interrupt⟩
  | clearFrameComplete => exact ⟨_, rfl, h.clearFrameComplete⟩

end Sys2Proof.Machine
end

section
/-! SUPPORT. The state that a launch makes (10_state.md R60, 70_reset_and_hazards.md R430, R432). -/

namespace Sys2Proof.Machine

/-- A reset reads its vector in program ROM, without a side effect, and writes CPU registers and the tick counter
(R430, R378). -/
theorem busReset_eq (s : State) :
    s.busReset = (s.withCpu (s.cpu.afterReset (wordOf (s.peek resetVector) (s.peek (resetVector + 1))))).setSysCounter
      0 := by
  simp only [State.busReset, State.cpuReset, memRead16_rom s resetVector (by decide) (by decide)]
  rfl

theorem launch_of_cartridge {l : Launch} {c : Cartridge} (h : l.cartridge = some c) :
    State.launch l = .ok (State.powerOn l c).busReset := by
  rw [State.launch, h]

/-- Only a launch with a cartridge has an initial state, the power-on state after its reset. -/
theorem launch_ok_iff {l : Launch} {s : State} :
    State.launch l = .ok s ↔ ∃ c, l.cartridge = some c ∧ (State.powerOn l c).busReset = s := by
  unfold State.launch
  cases l.cartridge <;> simp

/-- At power-on program ROM reads as the cartridge's array. -/
theorem peek_powerOn_rom (l : Launch) (c : Cartridge) {a : Addr} (h : 0x8000 ≤ a.toNat) :
    (State.powerOn l c).peek a = c.prg.getD (prgOffset c.prgBanks a) 0 := by
  rw [State.peek, busRead_high _ _ h]
  exact read_ofList_take c.prg (prgSize c.prgBanks) _ (prgOffset_lt c.prgBanks a)

/-- The memory of an array that is cut to the memory's size lies in its bounds, in canonical form. -/
theorem ofList_take_ok {w : Nat} (l : List (BitVec w)) (n : Nat) :
    Cells.wf (Cells.ofList (l.take n)) = true ∧ Cells.within n (Cells.ofList (l.take n)) = true :=
  ⟨wf_ofList _, within_ofList _ n (List.length_take_le n l)⟩

/-- The PPU at power-on, whatever its memories hold. -/
theorem powerOn_ppuOk (nt pal : Memory) (fb : Cells 6) : PpuOk (Ppu.powerOn nt pal fb) where
  scanline := (by decide : (-1 : Int) ≤ -1 ∧ (-1 : Int) ≤ 260)
  dot := Nat.zero_le 340
  attrib := (by decide : (0x00 : Byte).toNat < 4)
  spriteZeroHit := rfl
  spriteOverflow := rfl
  nmiPending := rfl

/-- The power-on state is in order but for its CPU, which nothing is known of before the reset. -/
theorem powerOn_devicesOk {l : Launch} (hv : l.valid = true) (c : Cartridge) : DevicesOk (State.powerOn l c) where
  memories :=
    { ram := ofList_take_ok l.ram0 2048
      prg := ofList_take_ok c.prg (prgSize c.prgBanks)
      chr := ofList_take_ok c.chr chrSize
      nt := ofList_take_ok l.nt0 2048
      pal := ofList_take_ok l.pal0 32
      fb := ofList_take_ok l.fb0 61440 }
  ppu := powerOn_ppuOk _ _ _
  cfg := hv

/-- Every launch that is not refused starts in the invariant. -/
theorem inv_of_launch {l : Launch} {s : State} (hv : l.valid = true) (h : State.launch l = .ok s) : Inv s := by
  obtain ⟨c, -, rfl⟩ := launch_ok_iff.1 h
  exact (powerOn_devicesOk hv c).busReset rfl

/-- Settles O59, by induction on the run: a launch starts in the invariant, and every host call keeps it. -/
theorem everyReachableStateHasTheInvariant : Obligations.EveryReachableStateHasTheInvariant := by
  refine ⟨fun l s => inv_of_launch, fun s hr => ?_⟩
  induction hr with
  | launch l st hv h => exact inv_of_launch hv h
  | call c st st' _ h ih =>
    obtain ⟨t, ht, hi⟩ := everyHostCallKeepsTheInvariant c st ih
    obtain rfl : t = st' := Host.Outcome.next.inj (ht.symm.trans h)
    exact hi

/-- Settles O57: the reset state is the initial state of the blank launch. -/
theorem theInvariantHoldsAtReset : Obligations.TheInvariantHoldsAtReset :=
  inv_of_launch (l := Launch.blank) rfl rfl

/-- Settles O60: the memories read as the launch's arrays, and the reset reads its vector from the last bytes of
the program array. -/
theorem aLaunchPutsItsContentsInTheMemories : Obligations.ALaunchPutsItsContentsInTheMemories := by
  intro l c hc
  have hlo : prgOffset c.prgBanks resetVector = prgSize c.prgBanks - 4 := by cases c.prgBanks <;> rfl
  have hhi : prgOffset c.prgBanks (resetVector + 1) = prgSize c.prgBanks - 3 := by cases c.prgBanks <;> rfl
  refine ⟨_, launch_of_cartridge hc, ?_⟩
  rw [busReset_eq, peek_powerOn_rom l c (by decide), peek_powerOn_rom l c (by decide), hlo, hhi]
  refine ⟨fun k => read_ofList_take l.ram0 2048 k, fun k => read_ofList_take c.prg (prgSize c.prgBanks) k,
    fun k => read_ofList_take c.chr chrSize k, fun k => read_ofList_take l.nt0 2048 k,
    fun k => read_ofList_take l.pal0 32 k, fun x y hx hy => ?_, rfl, rfl, rfl, ?_, rfl⟩
  · exact read_ofList_take l.fb0 61440 (fbIndex x y) (by unfold fbIndex; omega)
  · exact (wordOf_toNat _ _).trans (by omega)

end Sys2Proof.Machine
end

section
/-! SUPPORT. Work RAM and the stack page as the bus reads them (10_state.md R21, R23; 20_memory.md R74). -/

namespace Sys2Proof.Machine

/-- A bus read sees no CPU register. -/
@[simp] theorem peek_withCpu (s : State) (c : Cpu) (a : Addr) : (s.withCpu c).peek a = s.peek a := by
  rw [State.peek, busRead_withCpu]; rfl

/-- A port read sees no work RAM. -/
theorem ppuPortRead_setRam_fst (s : State) (m : Memory) (p : BitVec 3) :
    ((s.setRam m).ppuPortRead p).1 = (s.ppuPortRead p).1 := by
  unfold State.ppuPortRead
  repeat' split
  all_goals rfl

/-- One cell of work RAM written: its mirrors read the new byte, every other address reads as before. -/
theorem peek_setRam_write (s : State) (k : Nat) (v : Byte) (a : Addr) :
    (s.setRam (Cells.write s.ram k v)).peek a = if a.toNat < 0x2000 ∧ ramIndex a = k then v else s.peek a := by
  unfold State.peek
  by_cases h : a.toNat < 0x2000
  · rw [busRead_low _ a h, busRead_low _ a h]
    simp only [setRam_ram, read_write, h, true_and, eq_comm]
  · rw [if_neg fun hc => h hc.1, busRead_eq, busRead_eq]
    rw [if_neg (show ¬ a.toNat ≤ 0x1FFF by omega), if_neg (show ¬ a.toNat ≤ 0x1FFF by omega)]
    split
    · rfl
    · split
      · exact ppuPortRead_setRam_fst s _ _
      · rfl

/-- The addresses that name a byte of the stack page: the mirrors of its cell of work RAM. -/
theorem sameByte_stackAddr_iff (c : Config) (k : Byte) (a : Addr) :
    sameByte c (stackAddr k) a ↔ a.toNat < 0x2000 ∧ ramIndex a = 256 + k.toNat := by
  have hk := k.isLt
  have hs := stackAddr_toNat k
  unfold sameByte ramIndex
  omega

/-- After a push the mirrors of the pushed cell read the byte. -/
theorem peek_push_same {s : State} {a : Addr} (h : sameByte s.cfg (stackAddr s.cpu.s) a) (v : Byte) :
    (s.push v).peek a = v := by
  rw [push_eq, setS_eq, peek_withCpu, peek_setRam_write, if_pos ((sameByte_stackAddr_iff _ _ _).1 h)]

/-- A push changes no other byte. -/
theorem peek_push_other {s : State} {a : Addr} (h : ¬ sameByte s.cfg (stackAddr s.cpu.s) a) (v : Byte) :
    (s.push v).peek a = s.peek a := by
  rw [push_eq, setS_eq, peek_withCpu, peek_setRam_write, if_neg (mt (sameByte_stackAddr_iff _ _ _).2 h)]

theorem sameByte_stackAddr_self (c : Config) (k : Byte) : sameByte c (stackAddr k) (stackAddr k) :=
  .inl ⟨stackAddr_lt k, stackAddr_lt k, rfl⟩

/-- A push pushes its byte (R23). -/
theorem pushed_push (s : State) (v : Byte) : Pushed [v] s (s.push v) where
  pointer := by rw [push_eq]; rfl
  bytes k b hb := by
    obtain ⟨rfl, rfl⟩ : k = 0 ∧ v = b := by simpa [List.getElem?_singleton] using hb
    exact peek_push_same (by simpa using sameByte_stackAddr_self s.cfg s.cpu.s) v
  kept a _ h := peek_push_other (by simpa using h 0 Nat.zero_lt_one) v

/-- The pulled byte stands just above the pointer. -/
theorem pull_fst (s : State) : s.pull.1 = s.stackByte 1 := by
  rw [pull_eq, State.stackByte, State.peek, busRead_stack]; rfl

@[simp] theorem push_s (s : State) (v : Byte) : (s.push v).cpu.s = s.cpu.s - 1 := by rw [push_eq]; rfl
@[simp] theorem pull_s (s : State) : s.pull.2.cpu.s = s.cpu.s + 1 := by rw [pull_eq]; rfl

/-- A pull takes back what a push put down, pointer included. -/
theorem pull_push (s : State) (v : Byte) : (s.push v).pull.1 = v ∧ (s.push v).pull.2.cpu = s.cpu := by
  rw [pull_eq]
  simp only [push_s, sub_add_cancel]
  constructor
  · rw [push_eq]; exact read_write_same _ _ _
  · rw [push_eq]; rfl

/-- Settles O20: page 1 lies in work RAM, so a push is one write there, at the cell that the next pull reads. -/
theorem theStackWrapsInPageOne : Obligations.TheStackWrapsInPageOne := by
  intro s v
  refine ⟨stackAddr_toNat s.cpu.s, ?_, ?_, pushed_push s v, pull_fst s, pull_push s v⟩
  · rw [push_s]; bv_omega
  · rw [pull_s]; bv_omega

end Sys2Proof.Machine
end

section
/-! SUPPORT. What a bus read finds after a bus write, by the byte that the two addresses name (20_memory.md R73,
R74, R81, R82), and where a bus access changes nothing (R76, R103). -/

namespace Sys2Proof.Machine

/-! ## Which addresses name one byte -/

/-- The addresses that name a byte of work RAM: its mirrors (R74). -/
theorem sameByte_iff_of_ram {a : Addr} (h : a.toNat < 0x2000) (c : Config) (b : Addr) :
    sameByte c a b ↔ b.toNat < 0x2000 ∧ ramIndex b = ramIndex a := by
  unfold sameByte ramIndex
  omega

/-- The addresses that name a byte of program ROM: those of its offset (R81). -/
theorem sameByte_iff_of_rom {a : Addr} (h : 0x8000 ≤ a.toNat) (c : Config) (b : Addr) :
    sameByte c a b ↔ 0x8000 ≤ b.toNat ∧ prgOffset c.prgBanks b = prgOffset c.prgBanks a := by
  unfold sameByte prgOffset
  cases c.prgBanks with
  | one => simp only; omega
  | two => simp only [← BitVec.toNat_inj]; omega

/-- No memory stands behind a port, so nothing is stored there. -/
theorem not_storable_of_isPort {a : Addr} (h : isPort a) (c : Config) : ¬ storable c a := by
  obtain ⟨hlo, hhi⟩ := h
  unfold storable
  omega

/-- Outside work RAM nothing is stored with the default `PRG_WRITABLE` (R74). -/
theorem not_storable_of_not_writable {c : Config} {a : Addr} (h : 0x2000 ≤ a.toNat) (hw : c.prgWritable = false) :
    ¬ storable c a := by
  rintro (hlt | ⟨_, hw'⟩)
  · omega
  · exact Bool.false_ne_true (hw.symm.trans hw')

/-! ## Accesses by the kind of their address -/

/-- A read in the ports' window is a port read (R75). -/
theorem busRead_port {a : Addr} (h : isPort a) (s : State) : s.busRead a = s.ppuPortRead (portOf a) := by
  obtain ⟨hlo, hhi⟩ := h
  rw [busRead_eq, if_neg (by omega), if_neg (by omega), if_pos hhi]

/-- A write in the ports' window is a port write (R75). -/
theorem busWrite_port {a : Addr} (h : isPort a) (s : State) (d : Byte) :
    s.busWrite a d = s.ppuPortWrite (portOf a) d := by
  obtain ⟨hlo, hhi⟩ := h
  rw [busWrite_eq, if_neg (by omega), if_neg (by omega), if_pos hhi]

/-- The unmapped window reads zero (R76). -/
theorem busRead_unmapped {a : Addr} (hlo : 0x4000 ≤ a.toNat) (hhi : a.toNat < 0x8000) (s : State) :
    s.busRead a = (0x00, s) := by
  rw [busRead_eq, if_neg (by omega), if_neg (by omega), if_neg (by omega)]

/-- A write of program ROM when `PRG_WRITABLE` (R82). -/
theorem busWrite_high {s : State} {a : Addr} (h : 0x8000 ≤ a.toNat) (hw : s.cfg.prgWritable = true) (d : Byte) :
    s.busWrite a d = s.setPrg (Cells.write s.prg (prgOffset s.cfg.prgBanks a) d) := by
  rw [busWrite_eq, if_pos h, if_pos hw]

/-- A write that reaches neither memory nor a port is dropped (R76, R82). -/
theorem busWrite_of_not_storable {s : State} {a : Addr} (hp : ¬ isPort a) (h : ¬ storable s.cfg a) (d : Byte) :
    s.busWrite a d = s := by
  rcases busWrite_cases s a d with ⟨ha, hw, _⟩ | ⟨ha, _⟩ | ⟨ha, _⟩ | ⟨_, e⟩
  · exact absurd (.inr ⟨ha, hw⟩) h
  · exact absurd (.inl (Nat.lt_succ_of_le ha)) h
  · exact absurd ha hp
  · exact e

/-- The port of an address is given by its low three bits. -/
theorem portOf_eq_iff (a : Addr) (p : BitVec 3) : portOf a = p ↔ a.toNat % 8 = p.toNat := by
  rw [← BitVec.toNat_inj, portOf_toNat]

/-! ## A read after a write -/

/-- A port read sees no program ROM. -/
theorem ppuPortRead_setPrg_fst (s : State) (m : Memory) (p : BitVec 3) :
    ((s.setPrg m).ppuPortRead p).1 = (s.ppuPortRead p).1 := by
  unfold State.ppuPortRead
  repeat' split
  all_goals rfl

/-- One cell of program ROM written: the addresses of that cell read the new byte, every other address reads as
before. -/
theorem peek_setPrg_write (s : State) (k : Nat) (v : Byte) (a : Addr) :
    (s.setPrg (Cells.write s.prg k v)).peek a =
      if 0x8000 ≤ a.toNat ∧ prgOffset s.cfg.prgBanks a = k then v else s.peek a := by
  unfold State.peek
  by_cases h : 0x8000 ≤ a.toNat
  · rw [busRead_high _ a h, busRead_high _ a h]
    simp only [setPrg_prg, setPrg_cfg, read_write, h, true_and, eq_comm]
  · rw [if_neg fun hc => h hc.1, busRead_eq, busRead_eq, if_neg h, if_neg h]
    split
    · rfl
    · split
      · exact ppuPortRead_setPrg_fst s _ _
      · rfl

/-- The byte that a write stores is read at every address that names it. -/
theorem peek_busWrite_same {s : State} {a b : Addr} (hs : storable s.cfg a) (h : sameByte s.cfg a b) (d : Byte) :
    (s.busWrite a d).peek b = d := by
  obtain ha | ⟨ha, hw⟩ := hs
  · rw [busWrite_low s a d ha, peek_setRam_write, if_pos ((sameByte_iff_of_ram ha _ b).1 h)]
  · rw [busWrite_high ha hw, peek_setPrg_write, if_pos ((sameByte_iff_of_rom ha _ b).1 h)]

/-- A write changes no other byte of CPU memory, and none at all where nothing is stored. -/
theorem peek_busWrite_other {s : State} {a b : Addr} (hb : ¬ isPort b)
    (h : ¬ (storable s.cfg a ∧ sameByte s.cfg a b)) (d : Byte) : (s.busWrite a d).peek b = s.peek b := by
  rcases busWrite_cases s a d with ⟨ha, hw, e⟩ | ⟨ha, e⟩ | ⟨_, e⟩ | ⟨_, e⟩ <;> rw [e]
  · rw [peek_setPrg_write, if_neg fun hc => h ⟨.inr ⟨ha, hw⟩, (sameByte_iff_of_rom ha _ b).2 hc⟩]
  · have ha : a.toNat < 0x2000 := Nat.lt_succ_of_le ha
    rw [peek_setRam_write, if_neg fun hc => h ⟨.inl ha, (sameByte_iff_of_ram ha _ b).2 hc⟩]
  · exact busRead_byte_congr _ _ b hb (by simp) (by simp) (by simp)

/-- A write outside the ports reaches neither the PPU nor character ROM. -/
theorem busWrite_devices_of_not_port {s : State} {a : Addr} (h : ¬ isPort a) (d : Byte) :
    (s.busWrite a d).ppu = s.ppu ∧ (s.busWrite a d).chr = s.chr := by
  rcases busWrite_cases s a d with ⟨_, _, e⟩ | ⟨_, e⟩ | ⟨hp, _⟩ | ⟨_, e⟩
  · rw [e]; exact ⟨rfl, rfl⟩
  · rw [e]; exact ⟨rfl, rfl⟩
  · exact absurd hp h
  · rw [e]; exact ⟨rfl, rfl⟩

/-- A bus write is a store of its byte (R73). -/
theorem stored_busWrite (s : State) (a : Addr) (d : Byte) : Stored a d s (s.busWrite a d) where
  stored hs _ h := peek_busWrite_same hs h d
  kept _ hb h := peek_busWrite_other hb h d
  port h := by rw [busWrite_port h]; exact ⟨rfl, rfl⟩
  notPort h := busWrite_devices_of_not_port h d

/-- PPU memory reads as before when no array behind it changed. -/
theorem ppuMemoryKept_of_eq {s t : State} (hc : t.cfg = s.cfg) (hh : t.chr = s.chr) (hn : t.ppu.nt = s.ppu.nt)
    (hp : t.ppu.pal = s.ppu.pal) (hf : t.ppu.fb = s.ppu.fb) : PpuMemoryKept s t :=
  ⟨fun a => ppuRead_congr s t a hc hh hn hp, fun x y => by rw [State.pixel, hf, State.pixel]⟩

/-- Of the ports only the data port writes PPU memory (R314). -/
theorem ppuMemoryKept_ppuPortWrite {p : BitVec 3} (h : p ≠ 7) (s : State) (d : Byte) :
    PpuMemoryKept s (s.ppuPortWrite p d) := by
  rcases ppuPortWrite_cases s p d with ⟨h7, _⟩ | ⟨_, _, _, _, _, _, _, e⟩
  · exact absurd h7 h
  · rw [e]; exact ppuMemoryKept_of_eq rfl rfl rfl rfl rfl

/-! ## The statements -/

/-- Settles O10: a work RAM access touches the cell of its address modulo 2 KB and nothing else. -/
theorem ramIsMirroredEveryTwoKilobytes : Obligations.RamIsMirroredEveryTwoKilobytes := by
  intro s a d
  refine ⟨fun ha => by rw [busRead_low s a ha], fun ha b hb => ?_, fun ha hp hw => ?_⟩
  · rw [busWrite_low s a d ha, peek_setRam_write]
    simp only [ramIndex, hb, true_and, eq_comm]
  · exact busWrite_of_not_storable hp (not_storable_of_not_writable ha hw) d

/-- Settles O11: program ROM is read at its mapped offset and written there only when `PRG_WRITABLE`. -/
theorem programRomAndUnmappedWindow : Obligations.ProgramRomAndUnmappedWindow := by
  intro s a d
  refine ⟨fun ha => ?_, fun ha hw => ?_, fun ha hw b hb => ⟨fun h => ?_, fun h => ?_⟩, fun hlo hhi => ⟨?_, ?_⟩⟩
  · rw [State.peek, busRead_high s a ha]
    cases s.cfg.prgBanks <;> rfl
  · exact busWrite_of_not_storable (by unfold isPort; omega) (not_storable_of_not_writable (by omega) hw) d
  · exact peek_busWrite_same (.inr ⟨ha, hw⟩) h d
  · exact peek_busWrite_other hb (fun hc => h hc.2) d
  · rw [State.peek, busRead_unmapped hlo hhi]
  · exact busWrite_of_not_storable (by unfold isPort; omega) (by unfold storable; omega) d

/-- Settles O12: a read with an effect is a port read, and of the ports only 2 and 7 have one. -/
theorem onlyTwoPortsHaveReadSideEffects : Obligations.OnlyTwoPortsHaveReadSideEffects := by
  intro s a
  refine ⟨fun h => ?_, fun hp h2 => ?_, fun hp h7 => ?_⟩
  · rcases busRead_cases s a with e | ⟨hp, ⟨h2, _⟩ | ⟨h7, _⟩⟩
    · exact e
    · exact absurd ⟨hp, .inl ((portOf_eq_iff a 2).1 h2)⟩ h
    · exact absurd ⟨hp, .inr ((portOf_eq_iff a 7).1 h7)⟩ h
  · rw [busRead_port hp, (portOf_eq_iff a 2).2 h2]; rfl
  · rw [busRead_port hp, (portOf_eq_iff a 7).2 h7]; rfl

/-- Settles O13: the store of one byte; a port write changes no CPU memory, and no PPU memory unless the port is
the data port. -/
theorem aBusWriteStoresOneByte : Obligations.ABusWriteStoresOneByte := by
  intro s a d
  refine ⟨stored_busWrite s a d, busWrite_cpu s a d, busWrite_cfg s a d, busWrite_sysCounter s a d,
    fun hp b hb => ?_, fun h => ?_⟩
  · exact peek_busWrite_other hb (fun hc => not_storable_of_isPort hp _ hc.1) d
  · by_cases hp : isPort a
    · have h7 : portOf a ≠ 7 := fun e => h.elim (fun hne => hne ((portOf_eq_iff a 7).1 e)) (absurd hp)
      rw [busWrite_port hp]
      exact ppuMemoryKept_ppuPortWrite h7 s d
    · obtain ⟨hppu, hchr⟩ := busWrite_devices_of_not_port hp d
      exact ppuMemoryKept_of_eq (busWrite_cfg s a d) hchr (by rw [hppu]) (by rw [hppu]) (by rw [hppu])

end Sys2Proof.Machine
end

section
/-! SUPPORT. What a PPU read finds after a PPU write: which addresses name one byte of character ROM, of the
nametables and of the palette, and one cell of each written (20_memory.md R83, R84, R95 to R98). -/

namespace Sys2Proof.Machine

/-- A byte of character ROM has one address (R83). -/
theorem samePpuByte_iff_of_chr {a : Addr} (h : a.toNat % 0x4000 ≤ 0x1FFF) (c : Config) (b : Addr) :
    samePpuByte c a b ↔ b.toNat % 0x4000 ≤ 0x1FFF ∧ a.toNat % 0x4000 = b.toNat % 0x4000 := by
  unfold samePpuByte
  omega

/-- The addresses that name a nametable byte: those of its cell (R97). -/
theorem samePpuByte_iff_of_nt {a : Addr} (hlo : 0x2000 ≤ a.toNat % 0x4000) (hhi : a.toNat % 0x4000 ≤ 0x3EFF)
    (c : Config) (b : Addr) :
    samePpuByte c a b ↔ (0x2000 ≤ b.toNat % 0x4000 ∧ b.toNat % 0x4000 ≤ 0x3EFF) ∧
      ntIndex c.mirror (a.toNat % 0x4000) = ntIndex c.mirror (b.toNat % 0x4000) := by
  rw [ntIndex_eq_iff]
  unfold samePpuByte
  cases c.mirror <;> simp only <;> omega

/-- The addresses that name a palette byte: those of its cell (R98). -/
theorem samePpuByte_iff_of_pal {a : Addr} (h : 0x3F00 ≤ a.toNat % 0x4000) (c : Config) (b : Addr) :
    samePpuByte c a b ↔ 0x3F00 ≤ b.toNat % 0x4000 ∧
      palIndex (a.toNat % 0x4000) = palIndex (b.toNat % 0x4000) := by
  rw [palIndex_eq_iff]
  unfold samePpuByte
  omega

/-- One cell of character ROM written. -/
theorem ppuRead_setChr_write (s : State) (k : Nat) (d : Byte) (b : Addr) :
    (s.setChr (Cells.write s.chr k d)).ppuRead b =
      if b.toNat % 0x4000 ≤ 0x1FFF ∧ k = b.toNat % 0x4000 then d else s.ppuRead b := by
  simp only [ppuRead_eq, setChr_chr, setChr_ppu, setChr_cfg, read_write]
  by_cases h : b.toNat % 0x4000 ≤ 0x1FFF <;> simp [h]

/-- One cell of nametable RAM written. -/
theorem ppuRead_setNt_write (s : State) (k : Nat) (d : Byte) (b : Addr) :
    (s.setPpu { s.ppu with nt := Cells.write s.ppu.nt k d }).ppuRead b =
      if (0x2000 ≤ b.toNat % 0x4000 ∧ b.toNat % 0x4000 ≤ 0x3EFF) ∧ k = ntIndex s.cfg.mirror (b.toNat % 0x4000) then d
      else s.ppuRead b := by
  simp only [ppuRead_eq, setPpu_chr, setPpu_ppu, setPpu_cfg, read_write]
  by_cases h : b.toNat % 0x4000 ≤ 0x1FFF
  · simp [h, show ¬ 0x2000 ≤ b.toNat % 0x4000 by omega]
  · by_cases h' : b.toNat % 0x4000 ≤ 0x3EFF
    · simp [h, h', show 0x2000 ≤ b.toNat % 0x4000 by omega]
    · simp [h, h']

/-- One cell of palette RAM written. -/
theorem ppuRead_setPal_write (s : State) (k : Nat) (d : Byte) (b : Addr) :
    (s.setPpu { s.ppu with pal := Cells.write s.ppu.pal k d }).ppuRead b =
      if 0x3F00 ≤ b.toNat % 0x4000 ∧ k = palIndex (b.toNat % 0x4000) then d else s.ppuRead b := by
  simp only [ppuRead_eq, setPpu_chr, setPpu_ppu, setPpu_cfg, read_write]
  by_cases h : 0x3F00 ≤ b.toNat % 0x4000
  · simp [h, show ¬ b.toNat % 0x4000 ≤ 0x1FFF by omega, show ¬ b.toNat % 0x4000 ≤ 0x3EFF by omega]
  · simp [h, show b.toNat % 0x4000 ≤ 0x3EFF by omega]

/-- The byte that a PPU write stores is read at every address that names it. -/
theorem ppuRead_ppuWrite_same {s : State} {a b : Addr} (hs : ppuStorable s.cfg a) (h : samePpuByte s.cfg a b)
    (d : Byte) : (s.ppuWrite a d).ppuRead b = d := by
  rcases ppuWrite_cases s a d with ⟨_, ha, _, rfl, e⟩ | ⟨ha, hw, _⟩ | ⟨hlo, hhi, e⟩ | ⟨ha, e⟩
  · rw [e, ppuRead_setChr_write, if_pos ((samePpuByte_iff_of_chr ha _ b).1 h)]
  · exact absurd hs (by simp [ppuStorable, hw]; omega)
  · rw [e, ppuRead_setNt_write, if_pos ((samePpuByte_iff_of_nt hlo hhi _ b).1 h)]
  · rw [e, ppuRead_setPal_write, if_pos ((samePpuByte_iff_of_pal ha _ b).1 h)]

/-- A PPU write changes no other byte of PPU memory, and none at all where nothing is stored. -/
theorem ppuRead_ppuWrite_other {s : State} {a b : Addr} (h : ¬ (ppuStorable s.cfg a ∧ samePpuByte s.cfg a b))
    (d : Byte) : (s.ppuWrite a d).ppuRead b = s.ppuRead b := by
  rcases ppuWrite_cases s a d with ⟨_, ha, hw, rfl, e⟩ | ⟨_, _, e⟩ | ⟨hlo, hhi, e⟩ | ⟨ha, e⟩ <;> rw [e]
  · rw [ppuRead_setChr_write, if_neg fun hc => h ⟨.inr hw, (samePpuByte_iff_of_chr ha _ b).2 hc⟩]
  · rw [ppuRead_setNt_write, if_neg fun hc => h ⟨.inl hlo, (samePpuByte_iff_of_nt hlo hhi _ b).2 hc⟩]
  · rw [ppuRead_setPal_write,
      if_neg fun hc => h ⟨.inl (by omega), (samePpuByte_iff_of_pal ha _ b).2 hc⟩]

/-- A PPU write changes character ROM, nametable RAM and palette RAM at most. -/
theorem ppuWrite_frame (s : State) (a : Addr) (d : Byte) :
    s.ppuWrite a d =
      { s with
        chr := (s.ppuWrite a d).chr
        ppu := { s.ppu with nt := (s.ppuWrite a d).ppu.nt, pal := (s.ppuWrite a d).ppu.pal } } := by
  rcases ppuWrite_cases s a d with ⟨_, _, _, _, e⟩ | ⟨_, _, e⟩ | ⟨_, _, e⟩ | ⟨_, e⟩ <;> rw [e] <;> rfl

/-- Settles O14: the write reaches one cell of one PPU memory, and an address reads that cell exactly when it
names the same byte. -/
theorem ppuReadAfterPpuWrite : Obligations.PpuReadAfterPpuWrite := by
  intro s a b d
  exact ⟨fun hs h => ppuRead_ppuWrite_same hs h d, fun h => ppuRead_ppuWrite_other h d, ppuWrite_frame s a d⟩

end Sys2Proof.Machine
end

section
/-! SUPPORT. Which iNES images make a cartridge (20_memory.md R88, R89; 60_exceptions.md R420). -/

namespace Sys2Proof.Machine

/-- The cartridge that an accepted image makes. -/
def cartridgeOf (image : List Byte) (banks : PrgBanks) : Cartridge where
  prgBanks := banks
  mirror := imageMirroring image
  prg := (image.drop (imageStart image)).take (prgSize banks)
  chr := (image.drop (imageStart image + prgSize banks)).take chrSize

/-- The checks of the launch pass for an image with this many program banks. -/
structure ImageAccepted (image : List Byte) (banks : PrgBanks) : Prop where
  magic : image.take 4 = [0x4E, 0x45, 0x53, 0x1A]
  mapper : mapperId image = 0
  prgBanks : prgBanksOf (imageByte image 4) = some banks
  chrBanks : imageByte image 5 = 1
  length : imageStart image + prgSize banks + chrSize ≤ image.length

/-- An image makes a cartridge exactly when the checks pass. -/
theorem fromINes_ok_iff (image : List Byte) (c : Cartridge) :
    Cartridge.fromINes image = .ok c ↔ ∃ banks, ImageAccepted image banks ∧ cartridgeOf image banks = c := by
  constructor
  · intro h
    unfold Cartridge.fromINes at h
    split at h
    · cases h
    split at h
    · cases h
    split at h
    · cases h
    split at h
    · cases h
    split at h
    · cases h
    next hm hid _ banks hb hc hl =>
    exact ⟨banks, ⟨not_not.1 hm, not_not.1 hid, hb, not_not.1 hc, not_lt.1 hl⟩, Except.ok.inj h⟩
  · rintro ⟨banks, ⟨hm, hid, hb, hc, hl⟩, rfl⟩
    simp only [Cartridge.fromINes, hm, hid, hb, hc, Nat.not_lt.2 hl, ne_eq, not_true_eq_false, if_false, cartridgeOf]

/-- An image is refused exactly when the checks fail. -/
theorem fromINes_error_iff (image : List Byte) :
    (∃ e, Cartridge.fromINes image = .error e) ↔ ¬ ∃ banks, ImageAccepted image banks := by
  cases h : Cartridge.fromINes image with
  | error e =>
    refine ⟨fun _ ⟨banks, ha⟩ => ?_, fun _ => ⟨e, rfl⟩⟩
    cases h.symm.trans ((fromINes_ok_iff image _).2 ⟨banks, ha, rfl⟩)
  | ok c =>
    obtain ⟨banks, ha, _⟩ := (fromINes_ok_iff image c).1 h
    exact ⟨fun ⟨_, he⟩ => (nomatch he), fun hn => absurd ⟨banks, ha⟩ hn⟩

/-- The mapper id is made of the high nibbles of bytes 7 and 6 (R88). -/
theorem mapperId_eq_zero_iff (image : List Byte) :
    mapperId image = 0 ↔ (imageByte image 7).toNat / 16 * 16 + (imageByte image 6).toNat / 16 = 0 := by
  have hhigh : ∀ b : Byte, b &&& 0xF0 = 0 ↔ b.toNat / 16 = 0 := by decide
  have hlow : ∀ b : Byte, b >>> 4 = 0 ↔ b.toNat / 16 = 0 := by decide
  exact BitVec.or_eq_zero_iff.trans ((and_congr (hhigh _) (hlow _)).trans (by omega))

/-- The header byte as a number gives the size of program ROM (R89). -/
theorem prgSize_of_prgBanksOf {b : Byte} {banks : PrgBanks} (h : prgBanksOf b = some banks) :
    b.toNat * 16384 = prgSize banks ∧ (banks = .one ↔ b.toNat = 1) ∧ (b.toNat = 1 ∨ b.toNat = 2) := by
  unfold prgBanksOf at h
  split at h
  next h1 => subst h1; cases h; decide
  split at h
  next h2 => subst h2; cases h; decide
  cases h

/-- Of the header bytes 1 and 2 give a bank count (R89). -/
theorem exists_prgBanksOf {b : Byte} (h : b.toNat = 1 ∨ b.toNat = 2) : ∃ banks, prgBanksOf b = some banks := by
  obtain h | h := h
  · exact ⟨.one, by rw [BitVec.eq_of_toNat_eq (y := 1#8) h]; rfl⟩
  · exact ⟨.two, by rw [BitVec.eq_of_toNat_eq (y := 2#8) h]; rfl⟩

/-- Vertical mirroring is bit 0 of byte 6 (R88, D17). -/
theorem imageMirroring_vertical_iff (image : List Byte) :
    imageMirroring image = .vertical ↔ (imageByte image 6).getLsbD 0 = true := by
  unfold imageMirroring
  cases (imageByte image 6).getLsbD 0 <;> decide

/-- A segment of an image, byte by byte. -/
theorem getD_take_drop (image : List Byte) (start : Nat) {n k : Nat} (h : k < n) :
    ((image.drop start).take n).getD k 0 = image.getD (start + k) 0 := by
  simp [List.getD_eq_getElem?_getD, h]

/-- The arrays of an accepted image have the sizes of their memories. -/
theorem ImageAccepted.lengths {image : List Byte} {banks : PrgBanks} (h : ImageAccepted image banks) :
    (cartridgeOf image banks).prg.length = prgSize banks ∧ (cartridgeOf image banks).chr.length = chrSize := by
  have hl := h.length
  simp only [cartridgeOf, List.length_take, List.length_drop]
  omega

/-- The reset state of the model is the initial state of the blank launch (log 1 to log 4). -/
theorem launch_blank : State.launch Launch.blank = .ok State.reset := rfl

/-- Settles O43: the checks of the launch, read as numbers, and the cartridge they let through. -/
theorem acceptedImagesMakeTheirCartridge : Obligations.AcceptedImagesMakeTheirCartridge := by
  refine ⟨fun image => ?_, fun l h => by rw [State.launch, h], launch_blank⟩
  intro start n accepted
  have hacc : accepted ↔ ∃ banks, ImageAccepted image banks := by
    constructor
    · rintro ⟨hm, hid, hn, hc, hl⟩
      obtain ⟨banks, hb⟩ := exists_prgBanksOf hn
      obtain ⟨hsize, _⟩ := prgSize_of_prgBanksOf hb
      exact ⟨banks, hm, (mapperId_eq_zero_iff image).2 hid, hb, BitVec.eq_of_toNat_eq hc, hsize ▸ hl⟩
    · rintro ⟨banks, hm, hid, hb, hc, hl⟩
      obtain ⟨hsize, _, hn⟩ := prgSize_of_prgBanksOf hb
      exact ⟨hm, (mapperId_eq_zero_iff image).1 hid, hn, congrArg BitVec.toNat hc, hsize ▸ hl⟩
  refine ⟨fun h => (fromINes_error_iff image).2 (mt hacc.2 h), fun h => ?_⟩
  obtain ⟨banks, ha⟩ := hacc.1 h
  obtain ⟨hsize, hone, _⟩ := prgSize_of_prgBanksOf ha.prgBanks
  obtain ⟨hprg, hchr⟩ := ha.lengths
  refine ⟨cartridgeOf image banks, (fromINes_ok_iff image _).2 ⟨banks, ha, rfl⟩, hone,
    imageMirroring_vertical_iff image, hprg.trans hsize.symm, hchr, fun k hk => ?_, fun k hk => ?_⟩
  · exact getD_take_drop image start (hsize ▸ hk)
  · rw [show n * 16384 = prgSize banks from hsize]
    exact getD_take_drop image (start + prgSize banks) hk

end Sys2Proof.Machine
end

section
/-! SUPPORT. Decoding on byte lists, and the two tables of the encodings against each other: which instructions have
an opcode byte, and what the matrix holds at that byte (30_encoding.md R121 to R127). -/

namespace Sys2Proof

/-! ## Bytes and operands -/

theorem operandBytes_le_two (m : Mode) : m.operandBytes ≤ 2 := by cases m <;> decide

/-- A list that holds the operand bytes of the mode and more decodes to what the table entry builds of them. -/
theorem decodeIn_append (c : Config) (op : Byte) (bs rest : List Byte)
    (h : bs.length = (descriptor c op).mode.operandBytes) :
    decodeIn c (op :: (bs ++ rest)) = .ok ((descriptor c op).build (bs.getD 0 0) (bs.getD 1 0), rest) := by
  have hle : bs.length ≤ 2 := h ▸ operandBytes_le_two _
  unfold decodeIn
  simp only [← h]
  match bs, hle with
  | [], _ => rfl
  | [_], _ => rfl
  | [_, _], _ => rfl

/-- The bytes of an assembled operand are those it was assembled from. -/
theorem bytes_operandOf (m : Mode) (bs : List Byte) (h : bs.length = m.operandBytes) :
    (operandOf m (bs.getD 0 0) (bs.getD 1 0)).bytes = bs := by
  cases m
  case IMP => exact (List.length_eq_zero_iff.1 h).symm
  case ABS | ABX | ABY | IND =>
    obtain ⟨b1, b2, rfl⟩ := List.length_eq_two.1 h
    simp [operandOf, Operand.bytes]
  all_goals
    obtain ⟨b1, rfl⟩ := List.length_eq_one_iff.1 h
    rfl

/-- An operand form that is read is assembled from its own bytes (R122). -/
theorem operandOf_bytes (o : Operand) (h : o ≠ .pad) :
    operandOf o.mode (o.bytes.getD 0 0) (o.bytes.getD 1 0) = o := by
  cases o
  case pad => exact absurd rfl h
  case abs w | abx w | aby w | ind w => simp [operandOf, Operand.mode, Operand.bytes]
  all_goals rfl

theorem mode_eq_imm_iff (o : Operand) : o.mode = .IMM ↔ o = .pad ∨ ∃ b, o = .imm b := by
  cases o <;> simp [Operand.mode]

theorem unreadOperandOf_of_ne_imm {m : Mode} (h : m ≠ .IMM) (b1 b2 : Byte) :
    unreadOperandOf m b1 b2 = operandOf m b1 b2 := by
  cases m
  case IMM => exact absurd rfl h
  all_goals rfl

/-- An operand of a placeholder is assembled from its own bytes, a skipped one from any. -/
theorem unreadOperandOf_bytes (o : Operand) (h : ∀ b, o ≠ .imm b) :
    unreadOperandOf o.mode (o.bytes.getD 0 0) (o.bytes.getD 1 0) = o := by
  by_cases hp : o = .pad
  · rw [hp]; rfl
  · have hm : o.mode ≠ .IMM := by simp [mode_eq_imm_iff, hp, h]
    rw [unreadOperandOf_of_ne_imm hm, operandOf_bytes o hp]

/-! ## What a table entry builds -/

/-- What the table entry of an opcode byte builds: an instruction that exists, with that byte and the entry's
mode; but for a skipped byte, its operand is assembled from the operand bytes. -/
structure DescriptorOk (c : Config) (op : Byte) (d : Descriptor) : Prop where
  wellFormed : ∀ b1 b2, (d.build b1 b2).wellFormedIn c = true
  opcode : ∀ b1 b2, opcodeIn c (d.build b1 b2) = some op
  mode : ∀ b1 b2, (d.build b1 b2).operand.mode = d.mode
  operand : ∀ b1 b2, (d.build b1 b2).operand ≠ .pad → (d.build b1 b2).operand = operandOf d.mode b1 b2

/-- The placeholder of an unofficial byte that the run's table makes exists. -/
theorem placeholderExists_entry (c : Config) (op : Byte) (hu : isUnofficial op = true) (b1 b2 : Byte) :
    c.placeholderExists (c.unofficialEntry op).op op (unreadOperandOf (c.unofficialEntry op).mode b1 b2) = true := by
  unfold Config.placeholderExists
  rw [placeholderShape_eq c op hu, hu, unreadOperandOf_mode]
  cases (c.unofficialEntry op).mode <;> simp [unreadOperandOf, operandOf]

theorem placeholder_ok (c : Config) (op : Byte) (hu : isUnofficial op = true) :
    DescriptorOk c op (placeholder op (c.unofficialEntry op)) := by
  have hx := placeholderExists_entry c op hu
  unfold placeholder
  generalize c.unofficialEntry op = e at hx
  have ho : ∀ b1 b2, unreadOperandOf e.mode b1 b2 ≠ .pad →
      unreadOperandOf e.mode b1 b2 = operandOf e.mode b1 b2 := by
    intro b1 b2 hp
    refine unreadOperandOf_of_ne_imm (fun hm => hp ?_) b1 b2
    rw [hm]; rfl
  obtain ⟨k, m, base⟩ := e
  cases k with
  | xxx => exact ⟨hx, fun b1 b2 => if_pos (hx b1 b2), unreadOperandOf_mode m, ho⟩
  | nop => exact ⟨hx, fun b1 b2 => if_pos (hx b1 b2), unreadOperandOf_mode m, ho⟩

/-- Every byte's table entry is in order, of the official matrix or of the run's table (R123). -/
theorem descriptor_ok (c : Config) (op : Byte) : DescriptorOk c op (descriptor c op) := by
  cases hc : cellOf officialMatrix op with
  | some d =>
    obtain ⟨hw, ho, hm, ha, _⟩ := cellOk_of_cell op d hc
    rw [descriptor_of_cell c op d hc]
    exact ⟨hw c, ho c, hm, ha⟩
  | none =>
    rw [descriptor_of_no_cell c op hc]
    exact placeholder_ok c op ((unofficial_iff op).2 (by rw [hc]; rfl))

/-- Settles O3: the table entry of the byte builds the instruction, from the operand bytes that its mode takes off
the list. -/
theorem everyOpcodeByteDecodes : Obligations.EveryOpcodeByteDecodes := by
  intro c op b1 b2 rest
  have hle : (descriptor c op).mode.operandBytes ≤ (b1 :: b2 :: rest).length :=
    (operandBytes_le_two _).trans (Nat.le_add_left 2 rest.length)
  generalize b1 :: b2 :: rest = l at hle ⊢
  obtain ⟨hw, ho, hm, ha⟩ := descriptor_ok c op
  have hlen : (l.take (descriptor c op).mode.operandBytes).length = (descriptor c op).mode.operandBytes :=
    List.length_take_of_le hle
  have hdec := decodeIn_append c op _ (l.drop (descriptor c op).mode.operandBytes) hlen
  rw [List.take_append_drop] at hdec
  refine ⟨_, _, hdec, hw _ _, ho _ _, by rw [hm], fun hp => ?_⟩
  rw [hm, ha _ _ hp]
  exact bytes_operandOf _ _ hlen

/-- Settles O1: the first byte of each word selects a cell of the matrices, and the cell takes its operand bytes. -/
theorem wordsOfTheTableDecode : Obligations.WordsOfTheTableDecode :=
  ⟨rfl, rfl, rfl, rfl, rfl, rfl, rfl, rfl, rfl, rfl, rfl, rfl, rfl⟩

/-! ## Which instructions have an opcode byte -/

/-- An operand form has an opcode byte exactly when its mode is listed and its byte is read. -/
theorem formOpcode_isSome (es : List Encoding) (o : Operand) :
    (formOpcode es o).isSome = o.among (es.map (·.mode)) := by
  unfold formOpcode Operand.among
  by_cases h : o = .pad
  · simp [h]
  · rw [if_neg h, Option.isSome_map, List.isSome_find?, List.contains_eq_any_beq, List.any_map]
    simp [h, Function.comp_def, eq_comm, beq_eq_decide]

/-- The instructions with an opcode byte are those that exist. -/
theorem opcodeIn_isSome (c : Config) (i : Instr) : (opcodeIn c i).isSome = i.wellFormedIn c := by
  cases i
  case lda o | ldx o | ldy o | sta o | stx o | sty o | adc o | sbc o | and o | ora o | eor o | bit o | cmp o |
      cpx o | cpy o | inc o | dec o | asl o | lsr o | rol o | ror o | jmp o => exact formOpcode_isSome _ o
  case xxx b o | unofficialNop b o => exact Bool.eq_iff_iff.2 Option.isSome_ite
  all_goals rfl

/-! ## What the table holds at the opcode byte of an instruction -/

/-- The table entry `d` is the instruction's: it has the instruction's mode, and builds the instruction from its
operand bytes. -/
structure Describes (d : Descriptor) (i : Instr) : Prop where
  mode : d.mode = i.operand.mode
  build : d.build (i.operand.bytes.getD 0 0) (i.operand.bytes.getD 1 0) = i

/-- The encodings of a mnemonic are those of the matrix, with one mode, base count and operation (R124). -/
def InMatrix (op : Operand → Instr) (es : List Encoding) : Prop :=
  ∀ e ∈ es, cellOf officialMatrix e.opcode = cOp op e.mode e.base

/-- Where an operand form has an opcode byte, one encoding of the list gives the byte and the base cycles. -/
theorem formOpcode_eq_some {es : List Encoding} {o : Operand} {b : Byte} (h : formOpcode es o = some b) :
    o ≠ .pad ∧ ∃ e ∈ es, e.mode = o.mode ∧ e.opcode = b ∧ baseOf es o.mode = e.base := by
  unfold formOpcode at h
  split at h
  · cases h
  next hp =>
    obtain ⟨e, he, hb⟩ := Option.map_eq_some_iff.1 h
    exact ⟨hp, e, List.mem_of_find?_eq_some he, by simpa using List.find?_some he, hb, by rw [baseOf, he]; rfl⟩

/-- The table entry at the byte of an operand form. -/
theorem describes_of_form (c : Config) {op : Operand → Instr} {es : List Encoding} (hes : InMatrix op es)
    (hop : ∀ o, (op o).operand = o) {o : Operand} {b : Byte} (h : formOpcode es o = some b) :
    Describes (descriptor c b) (op o) := by
  obtain ⟨hp, e, he, hm, rfl, -⟩ := formOpcode_eq_some h
  rw [descriptor_of_cell c _ _ (hes e he), hm]
  refine ⟨congrArg Operand.mode (hop o).symm, ?_⟩
  rw [hop]
  exact congrArg op (operandOf_bytes o hp)

theorem placeholderExists_iff (c : Config) (k : PlaceholderOp) (b : Byte) (o : Operand) :
    c.placeholderExists k b o = true ↔
      isUnofficial b = true ∧ c.placeholderShape b = (k, o.mode) ∧ ∀ x, o ≠ .imm x := by
  unfold Config.placeholderExists
  cases o <;> simp

/-- A placeholder that exists has the operation and the mode of its byte's entry, and its operand is not read. -/
theorem entry_of_placeholderExists {c : Config} {k : PlaceholderOp} {b : Byte} {o : Operand}
    (h : c.placeholderExists k b o = true) :
    ∃ base, descriptor c b = placeholder b ⟨k, o.mode, base⟩ ∧ c.unofficialEntry b = ⟨k, o.mode, base⟩ ∧
      ∀ x, o ≠ .imm x := by
  obtain ⟨hu, hs, hi⟩ := (placeholderExists_iff c k b o).1 h
  rw [placeholderShape_eq c b hu, Prod.mk.injEq] at hs
  obtain ⟨hk, hm⟩ := hs
  have he : c.unofficialEntry b = ⟨k, o.mode, (c.unofficialEntry b).base⟩ := by rw [← hk, ← hm]
  refine ⟨(c.unofficialEntry b).base, ?_, he, hi⟩
  rw [← he]
  exact descriptor_of_no_cell c b (Option.isNone_iff_eq_none.1 ((unofficial_iff b).1 hu))

/-- The table holds the instruction at its opcode byte. -/
theorem describes_of_opcodeIn (c : Config) (i : Instr) (b : Byte) (h : opcodeIn c i = some b) :
    Describes (descriptor c b) i := by
  cases i
  case lda o | ldx o | ldy o | sta o | stx o | sty o | adc o | sbc o | and o | ora o | eor o | bit o | cmp o |
      cpx o | cpy o | inc o | dec o | asl o | lsr o | rol o | ror o | jmp o =>
    refine describes_of_form c ?_ (fun _ => rfl) h
    intro e he
    fin_cases he <;> rfl
  case xxx x o | unofficialNop x o =>
    obtain ⟨hx, hb⟩ := Option.ite_none_right_eq_some.1 h
    cases hb
    obtain ⟨base, hd, -, hi⟩ := entry_of_placeholderExists hx
    rw [hd]
    exact ⟨rfl, congrArg _ (unreadOperandOf_bytes o hi)⟩
  case jsr w => cases h; exact ⟨rfl, congrArg Instr.jsr (wordOf_low_high w)⟩
  all_goals
    cases h
    exact ⟨rfl, rfl⟩

/-- Settles O2: the table holds the instruction at its opcode byte, and only instructions that exist have one. -/
theorem decodingAnEncodedInstructionGivesItBack : Obligations.DecodingAnEncodedInstructionGivesItBack := by
  intro c i
  rw [← opcodeIn_isSome c i]
  constructor
  · intro h
    obtain ⟨b, hb⟩ := Option.isSome_iff_exists.1 h
    obtain ⟨hm, hi⟩ := describes_of_opcodeIn c i b hb
    have he : encodeIn c i = some (b :: i.operand.bytes) := by rw [encodeIn, hb]; rfl
    refine ⟨_, he, Laws.length_of_encode c i _ he, fun rest => ?_⟩
    rw [List.cons_append, decodeIn_append c b _ rest (by rw [bytes_length, hm]), hi]
  · intro h
    rw [Option.isSome_eq_false_iff, Option.isNone_iff_eq_none] at h
    rw [encodeIn, h]; rfl

end Sys2Proof
end

section
/-! SUPPORT. The end of every instruction: its next state, what it keeps of the CPU's records, and its cycle count
(30_encoding.md R132, R133). -/

namespace Sys2Proof.Machine

/-! ## What every instruction keeps -/

/-- The CPU's records that belong to the clock and to the reading of the bytes: no operation writes them. -/
def KeepsRecords (s t : State) : Prop :=
  t.cpu.clockCount = s.cpu.clockCount ∧ t.cpu.opcode = s.cpu.opcode ∧ t.cpu.mode = s.cpu.mode

theorem KeepsRecords.trans {s t u : State} (h : KeepsRecords s t) (h' : KeepsRecords t u) : KeepsRecords s u := by
  obtain ⟨hc, ho, hm⟩ := h
  obtain ⟨hc', ho', hm'⟩ := h'
  exact ⟨hc'.trans hc, ho'.trans ho, hm'.trans hm⟩

theorem keepsRecords_fetch (o : Operand) (s : State) : KeepsRecords s (fetch o s).2 := by
  simp [KeepsRecords]

theorem keepsRecords_addToA (s : State) (m : Byte) : KeepsRecords s (s.addToA m) := by
  simp [KeepsRecords, State.addToA]

theorem keepsRecords_branchIf (cond : Bool) (s : State) : KeepsRecords s (branchIf cond s).state := by
  cases cond <;> simp [KeepsRecords, branchIf_eq]

theorem keepsRecords_shiftResult (o : Operand) (out : Bool) (r : Byte) (s : State) :
    KeepsRecords s (shiftResult o out r s).state := by
  by_cases h : o = .imp
  · subst h; simp [KeepsRecords, shiftResult_imp]
  · simp [KeepsRecords, shiftResult_memory o out r s h]

theorem keepsRecords_brkEntry (s : State) : KeepsRecords s s.brkEntry := by
  simp [KeepsRecords, brkEntry_eq, push_eq, push16_eq]

theorem keepsRecords_returnFromInterrupt (s : State) : KeepsRecords s s.returnFromInterrupt := by
  simp [KeepsRecords, State.returnFromInterrupt, pull_eq, pull16_eq]

/-- The mode before an operation and the end after it keep the records, and the end sets U (R132). -/
theorem runInstr_keepsRecords {base : Nat} {o : Operand} {op : State → OpResult} {s : State}
    (h : ∀ u, KeepsRecords u (op u).state) :
    ∃ t, runInstr base o op s = .next t ∧ t.flag .U = true ∧ KeepsRecords s t := by
  obtain ⟨hc, ho, hm⟩ := h (addrMode o s).2
  exact ⟨_, rfl, by simp, by simpa using hc, by simpa using ho, by simpa using hm⟩

/-- Every instruction completes, sets U and keeps the records: its operation is made of shared operations that
keep them and of register writes, flag writes and bus accesses, none of them to a record. -/
theorem exec_keepsRecords (i : Instr) (s : State) :
    Completes i s fun t => t.flag .U = true ∧ KeepsRecords s t := by
  unfold Completes
  cases i <;> unfold exec <;> refine runInstr_keepsRecords fun u => ?_
  case adc o | sbc o => exact (keepsRecords_fetch o u).trans (keepsRecords_addToA _ _)
  case asl o | lsr o | rol o | ror o => exact (keepsRecords_fetch o u).trans (keepsRecords_shiftResult o _ _ _)
  case bcc off | bcs off | beq off | bne off | bmi off | bpl off | bvc off | bvs off =>
    exact keepsRecords_branchIf _ u
  case brk => exact keepsRecords_brkEntry u
  case rti => exact keepsRecords_returnFromInterrupt u
  case jsr w | rts | pha | php | pla | plp => simp [KeepsRecords, push_eq, push16_eq, pull_eq, pull16_eq]
  all_goals simp [KeepsRecords]

/-- Settles O4: the elementary effects of an instruction keep the launch constants and the tick counter. -/
theorem everyInstructionHasANextState : Obligations.EveryInstructionHasANextState := by
  intro i s
  obtain ⟨t, ht, hu, hc, ho, hm⟩ := exec_keepsRecords i s
  obtain ⟨t', ht', e⟩ := exec_effects i s
  obtain rfl : t = t' := Host.Outcome.next.inj (ht.symm.trans ht')
  exact ⟨t, ht, hu, e.cfg, e.sysCounter, hc, ho, hm⟩

/-! ## Cycle counts -/

/-- The count of an instruction that is no branch: its base and the two signals (R132). -/
theorem runInstr_countdown {i : Instr} {s : State} {base : Nat} {o : Operand} {op : State → OpResult}
    (ho : i.operand = o) (hs : (op (addrMode o s).2).s2 = signals i) (hb : (op (addrMode o s).2).b = 0)
    (hn : branchTaken s i = false) :
    ∃ t, runInstr base o op s = .next t ∧ t.cpu.countdown = base + extraCycles i s := by
  subst ho
  refine ⟨_, rfl, ?_⟩
  rw [complete_countdown, hs, hb, extraCycles, hn]
  cases (addrMode i.operand s).1 <;> cases signals i <;> rfl

/-- The cycles of a taken branch, by the pages of the target and of the next instruction (R230). -/
theorem branchIf_b (cond : Bool) (s : State) :
    (branchIf cond s).b = if cond = true then
      if (s.cpu.pc + s.cpu.rel).toNat / 256 = s.cpu.pc.toNat / 256 then 1 else 2 else 0 := by
  have hc := crosses_iff s.cpu.pc (s.cpu.pc + s.cpu.rel)
  cases cond with
  | false => rfl
  | true =>
    rw [branchIf_eq, if_pos rfl, if_pos rfl]
    cases h : crosses s.cpu.pc (s.cpu.pc + s.cpu.rel) with
    | true => rw [if_neg (hc.1 h)]; rfl
    | false => rw [if_pos (not_not.1 (mt hc.2 (by simp [h])))]; rfl

theorem branchIf_s2 (cond : Bool) (s : State) : (branchIf cond s).s2 = false := by cases cond <;> rfl

/-- The count of a branch: two cycles and those of a taken branch (R230). -/
theorem runInstr_branch_countdown {i : Instr} {s : State} {o : Operand} {cond : State → Bool}
    (ho : i.operand = o) (hs : signals i = false) (hc : cond (addrMode o s).2 = branchTaken s i) :
    ∃ t, runInstr 2 o (fun u => branchIf (cond u) u) s = .next t ∧ t.cpu.countdown = 2 + extraCycles i s := by
  subst ho
  refine ⟨_, rfl, ?_⟩
  simp only [complete_countdown, branchIf_b, branchIf_s2, hc, extraCycles, hs, addrMode_pc]
  simp [carryValue]

/-- The base counts of a mnemonic's encodings are those of the matrix (R124). -/
def BasesAgree (es : List Encoding) : Prop :=
  ∀ e ∈ es, (cellOf officialMatrix e.opcode).map (·.base) = some e.base

/-- The base count of an operand form is that of its byte's table entry. -/
theorem baseOf_eq_descriptor_base (c : Config) {es : List Encoding} (hes : BasesAgree es) {o : Operand} {b : Byte}
    (h : formOpcode es o = some b) : baseOf es o.mode = (descriptor c b).base := by
  obtain ⟨-, e, he, -, rfl, hbase⟩ := formOpcode_eq_some h
  obtain ⟨d, hd, hdb⟩ := Option.map_eq_some_iff.1 (hes e he)
  rw [hbase, descriptor_of_cell c _ d hd, hdb]

/-- An instruction with an opcode byte takes the base count of that byte's table entry and its extra cycles. -/
theorem countdown_of_opcodeIn (i : Instr) (s : State) (b : Byte) (h : opcodeIn s.cfg i = some b) :
    Completes i s fun t => t.cpu.countdown = (descriptor s.cfg b).base + extraCycles i s := by
  unfold Completes
  cases i <;> unfold exec
  case lda o | ldx o | ldy o | sta o | stx o | sty o | adc o | sbc o | and o | ora o | eor o | bit o | cmp o |
      cpx o | cpy o | inc o | dec o | asl o | lsr o | rol o | ror o | jmp o =>
    rw [← baseOf_eq_descriptor_base s.cfg (by unfold BasesAgree; decide) h]
    apply runInstr_countdown <;> rfl
  case bcc off | bcs off | beq off | bne off | bmi off | bpl off | bvc off | bvs off =>
    cases h
    apply runInstr_branch_countdown <;> rfl
  case xxx x o | unofficialNop x o =>
    obtain ⟨hx, hb⟩ := Option.ite_none_right_eq_some.1 h
    cases hb
    obtain ⟨base, hd, he, -⟩ := entry_of_placeholderExists hx
    rw [show (descriptor s.cfg b).base = (s.cfg.unofficialEntry b).base by rw [hd, he]; rfl]
    apply runInstr_countdown <;> rfl
  all_goals
    cases h
    apply runInstr_countdown <;> rfl

/-- Settles O5: what the table entry of a byte builds has that byte, and so its base count. -/
theorem countdownIsBaseCountPlusExtraCycles : Obligations.CountdownIsBaseCountPlusExtraCycles := by
  intro op b1 b2 s
  exact countdown_of_opcodeIn _ s op ((descriptor_ok s.cfg op).opcode b1 b2)

end Sys2Proof.Machine
end

section
/-! SUPPORT. What the addressing modes leave: the effective address as a number, the page-cross signal, and the
operand that `Fetch()` reads there (40_addressing_modes.md R150 to R163). -/

namespace Sys2Proof.Machine

/-! ## Effective addresses -/

/-- A zero-page address with its index wraps inside page 0 (R153, R154). -/
theorem zeroPage_add_toNat (b r : Byte) : (zeroPage (b + r)).toNat = (b.toNat + r.toNat) % 256 := by
  rw [zeroPage_toNat, BitVec.toNat_add]

/-- Settles O7: a zero-page sum is taken in a byte, an absolute one in a word, whose page changes by the carry of
the low byte. -/
theorem indexedAddressesWrapAndSignal : Obligations.IndexedAddressesWrapAndSignal := by
  intro b w s
  exact ⟨⟨zeroPage_toNat b, rfl⟩, ⟨zeroPage_add_toNat b s.cpu.x, rfl⟩, ⟨zeroPage_add_toNat b s.cpu.y, rfl⟩,
    ⟨rfl, rfl⟩, ⟨indexed_toNat w s.cpu.x, crosses_indexed w s.cpu.x⟩,
    ⟨indexed_toNat w s.cpu.y, crosses_indexed w s.cpu.y⟩⟩

/-- A zero-page pointer as a number: both of its bytes come from page 0 (R160, R161). -/
theorem zeroPagePointer_toNat (s : State) (b : Byte) :
    (s.zeroPagePointer b).1.toNat =
      (s.peek (zeroPage b)).toNat + 256 * (s.peek (zeroPage (b + 1))).toNat := by
  rw [zeroPagePointer_eq, wordOf_toNat, Nat.mul_comm, Nat.add_comm]; rfl

/-- Settles O8: IZX takes the pointer as its address, IZY indexes it as mode ABY indexes its word. -/
theorem zeroPagePointersWrapInPageZero : Obligations.ZeroPagePointersWrapInPageZero := by
  intro b s pointer
  have hp (k : Byte) : (s.zeroPagePointer k).1.toNat = pointer k := zeroPagePointer_toNat s k
  refine ⟨⟨hp (b + s.cpu.x), rfl⟩, ?_⟩
  rw [← hp]
  exact ⟨indexed_toNat _ s.cpu.y, crosses_indexed _ s.cpu.y⟩

/-! ## The operand -/

/-- `Fetch()` after a mode with an address in memory is one bus read at that address: the mode before it has
changed CPU registers only (R163). -/
theorem fetch_addrMode_of_memory (o : Operand) (s : State) (himp : o ≠ .imp) (himm : ∀ b, o ≠ .imm b)
    (hind : ∀ p, o ≠ .ind p) :
    s.operandByte o = s.peek (s.operandAddr o) ∧
      (s.afterOperand o).ppu = (s.busRead (s.operandAddr o)).2.ppu := by
  have hread : (addrMode o s).2.busRead (s.operandAddr o) =
      (s.peek (s.operandAddr o), (s.busRead (s.operandAddr o)).2.withCpu (addrMode o s).2.cpu) := by
    rw [addrMode_withCpu o s hind, busRead_withCpu]; rfl
  have hfetch := fetch_of_memory o (addrMode o s).2 himp himm
  rw [← State.operandAddr, hread] at hfetch
  rw [State.operandByte, State.afterOperand, hfetch]
  exact ⟨rfl, rfl⟩

/-- Settles O9: in modes IMP and IMM no bus read is made, outside them one is; REL extends the sign of its byte. -/
theorem fetchIsOneBusReadAtTheEffectiveAddress : Obligations.FetchIsOneBusReadAtTheEffectiveAddress := by
  intro o s
  refine ⟨?imp, ?imm, ?rel, fetch_addrMode_of_memory o s⟩
  case imp => rintro rfl; exact ⟨rfl, rfl⟩
  case imm => rintro b rfl; exact ⟨rfl, rfl, rfl⟩
  case rel => rintro b rfl; exact ⟨BitVec.toInt_signExtend_of_le (by decide), rfl⟩

/-! ## The frame of a mode -/

/-- Settles O6: a mode changes CPU registers, and in mode IND what the two reads of its pointer change, which is no
memory. -/
theorem addressingModesWriteOnlyTheirResult : Obligations.AddressingModesWriteOnlyTheirResult := by
  intro o s
  exact ⟨addrMode_cpu o s, addrMode_cfg o s, addrMode_ram o s, addrMode_prg o s, addrMode_chr o s,
    addrMode_sysCounter o s, addrMode_nt o s, addrMode_pal o s, addrMode_fb o s, addrMode_ppu o s⟩

end Sys2Proof.Machine
end

section
/-! SUPPORT. The frame of an instruction in the words of the statements: what its operand stage, its register and flag
writes and its end keep of the registers, the flags and the memories. -/

namespace Sys2Proof.Machine

/-! ## Registers and flags -/

@[simp] theorem addrMode_reg (o : Operand) (s : State) (r : Reg) : (addrMode o s).2.reg r = s.reg r := by
  cases r <;> simp [State.reg]

@[simp] theorem fetch_reg (o : Operand) (s : State) (r : Reg) : (fetch o s).2.reg r = s.reg r := by
  cases r <;> simp [State.reg]

@[simp] theorem busWrite_reg (s : State) (a : Addr) (d : Byte) (r : Reg) : (s.busWrite a d).reg r = s.reg r := by
  cases r <;> simp [State.reg]

@[simp] theorem setZN_reg (s : State) (v : Byte) (r : Reg) : (s.setZN v).reg r = s.reg r := by
  cases r <;> rfl

@[simp] theorem complete_reg (base : Nat) (s1 : Bool) (res : OpResult) (r : Reg) :
    (complete base s1 res).reg r = res.state.reg r := by
  cases r <;> rfl

@[simp] theorem afterOperand_reg (s : State) (o : Operand) (r : Reg) : (s.afterOperand o).reg r = s.reg r := by
  rw [State.afterOperand, fetch_reg, addrMode_reg]

@[simp] theorem afterOperand_flag (s : State) (o : Operand) (f : Flag) : (s.afterOperand o).flag f = s.flag f := by
  rw [State.afterOperand, fetch_flag, addrMode_flag]

/-- `SetZN(v)`, and what keeps Z and N after it, leaves the flags of `v` (00_scope.md R12). -/
theorem znOf_of_flags {t : State} {v : Byte} (hz : t.flag .Z = decide (v = 0)) (hn : t.flag .N = v.msb) : ZnOf v t :=
  ⟨hz.trans (decide_eq_decide.2 BitVec.toNat_inj.symm), hn.trans (BitVec.msb_eq_decide v)⟩

/-- The frame of an executed instruction: what is left to show of it are the registers and the flags, since every
instruction sets U and keeps the constants, the counters and the records (R132). -/
theorem keeps_of_exec {i : Instr} {s t : State} {rs : List Reg} {fs : List Flag} (h : exec i s = .next t)
    (hreg : ∀ r, r ∉ rs → t.reg r = s.reg r) (hflag : ∀ f, f ∉ fs → f ≠ .U → t.flag f = s.flag f) :
    Keeps rs fs s t := by
  obtain ⟨t', h', hu, hcfg, hsys, hclock, hop, hmode⟩ := everyInstructionHasANextState i s
  obtain rfl : t = t' := Host.Outcome.next.inj (h.symm.trans h')
  exact ⟨hreg, hflag, hu, hcfg, hsys, hclock, hop, hmode⟩

/-- The register `r` holds one byte: `get` reads it, and `set` writes it and changes no other register, no flag and
nothing outside the CPU. -/
structure ByteRegister (r : Reg) (get : State → Byte) (set : State → Byte → State) : Prop where
  toNat_get (s : State) : (get s).toNat = s.reg r
  get_set (s : State) (v : Byte) : get (set s v) = v
  reg_set (s : State) (v : Byte) (q : Reg) (h : q ≠ r) : (set s v).reg q = s.reg q
  flag_set (s : State) (v : Byte) (f : Flag) : (set s v).flag f = s.flag f
  set_eq (s : State) (v : Byte) : set s v = s.withCpu (set s v).cpu

theorem byteRegister_a : ByteRegister .A (fun s => s.cpu.a) State.setA where
  toNat_get _ := rfl
  get_set := setA_a
  reg_set _ _ q h := by cases q <;> trivial
  flag_set s v f := flag_setA s f v
  set_eq _ _ := rfl

theorem byteRegister_x : ByteRegister .X (fun s => s.cpu.x) State.setX where
  toNat_get _ := rfl
  get_set := setX_x
  reg_set _ _ q h := by cases q <;> trivial
  flag_set s v f := flag_setX s f v
  set_eq _ _ := rfl

theorem byteRegister_y : ByteRegister .Y (fun s => s.cpu.y) State.setY where
  toNat_get _ := rfl
  get_set := setY_y
  reg_set _ _ q h := by cases q <;> trivial
  flag_set s v f := flag_setY s f v
  set_eq _ _ := rfl

theorem byteRegister_s : ByteRegister .S (fun s => s.cpu.s) State.setS where
  toNat_get _ := rfl
  get_set := setS_s
  reg_set _ _ q h := by cases q <;> trivial
  flag_set s v f := flag_setS s f v
  set_eq _ _ := rfl

/-! ## Memories -/

/-- CPU memory reads as before when neither array behind it changed. -/
theorem cpuMemoryKept_of_eq {s t : State} (hc : t.cfg = s.cfg) (hr : t.ram = s.ram) (hp : t.prg = s.prg) :
    CpuMemoryKept s t :=
  fun a ha => busRead_byte_congr s t a ha hc hr hp

theorem cpuMemoryKept_addrMode (o : Operand) (s : State) : CpuMemoryKept s (addrMode o s).2 :=
  cpuMemoryKept_of_eq (addrMode_cfg o s) (addrMode_ram o s) (addrMode_prg o s)

theorem ppuMemoryKept_addrMode (o : Operand) (s : State) : PpuMemoryKept s (addrMode o s).2 :=
  ppuMemoryKept_of_eq (addrMode_cfg o s) (addrMode_chr o s) (addrMode_nt o s) (addrMode_pal o s) (addrMode_fb o s)

theorem cpuMemoryKept_afterOperand (s : State) (o : Operand) : CpuMemoryKept s (s.afterOperand o) := by
  apply cpuMemoryKept_of_eq <;> simp [State.afterOperand]

theorem ppuMemoryKept_afterOperand (s : State) (o : Operand) : PpuMemoryKept s (s.afterOperand o) := by
  apply ppuMemoryKept_of_eq <;> simp [State.afterOperand]

/-- No register write shows in CPU memory. -/
theorem CpuMemoryKept.withCpu {s t : State} (h : CpuMemoryKept s t) (c : Cpu) : CpuMemoryKept s (t.withCpu c) :=
  fun a ha => (peek_withCpu t c a).trans (h a ha)

/-- Register writes after the operand read touch no memory. -/
theorem readsOnly_withCpu (o : Operand) (s : State) (c : Cpu) : ReadsOnly o s ((s.afterOperand o).withCpu c) :=
  ⟨(cpuMemoryKept_afterOperand s o).withCpu c, ppuMemoryKept_afterOperand s o, rfl⟩

/-- Register writes alone touch no memory. -/
theorem touchesNoMemory_withCpu (s : State) (c : Cpu) : TouchesNoMemory s (s.withCpu c) :=
  ⟨cpuMemoryKept_of_eq rfl rfl rfl, ppuMemoryKept_of_eq rfl rfl rfl rfl rfl, rfl⟩

/-- Register writes after a store leave it a store of the same byte. -/
theorem Stored.withCpu {a : Addr} {v : Byte} {s t : State} (h : Stored a v s t) (c : Cpu) :
    Stored a v s (t.withCpu c) where
  stored hs b hb := (peek_withCpu t c b).trans (h.stored hs b hb)
  kept b hb hn := (peek_withCpu t c b).trans (h.kept b hb hn)
  port := h.port
  notPort := h.notPort

end Sys2Proof.Machine
end

section
/-! SUPPORT. Loads, stores and transfers (41_load_store_transfer.md R170 to R181): a byte goes to a register, with or
without `SetZN`, or to the effective address. -/

namespace Sys2Proof.Machine

/-- An instruction that ends by writing the byte `v` to a register with `SetZN(v)`, from a state `u` that has the
registers and the flags of the start. A property of the memories holds at the end if no register write spoils it
at `u`. -/
theorem completes_copy {i : Instr} {s u : State} {r : Reg} {get : State → Byte} {set : State → Byte → State}
    {v : Byte} {base b : Nat} {s1 s2 : Bool} {memory : State → Prop} (hr : ByteRegister r get set)
    (hexec : exec i s = .next (complete base s1 ⟨(set u v).setZN v, s2, b⟩))
    (hreg : ∀ q, u.reg q = s.reg q) (hflag : ∀ f, u.flag f = s.flag f) (hmem : ∀ c, memory (u.withCpu c)) :
    Completes i s fun t => get t = v ∧ ZnOf v t ∧ Keeps [r] [.Z, .N] s t ∧ memory t := by
  refine ⟨_, hexec, ?value, znOf_of_flags (by simp) (by simp), keeps_of_exec hexec ?regs ?flags, ?memory⟩
  case value =>
    apply BitVec.eq_of_toNat_eq
    rw [hr.toNat_get, complete_reg, setZN_reg, ← hr.toNat_get, hr.get_set]
  case regs =>
    intro q hq
    rw [complete_reg, setZN_reg, hr.reg_set u v q (by simpa using hq), hreg]
  case flags =>
    intro f hf hU
    obtain ⟨hZ, hN⟩ : f ≠ .Z ∧ f ≠ .N := by simpa using hf
    simp only [complete_flag, flag_setZN, hr.flag_set, hflag, hU, hZ, hN, if_false]
  case memory =>
    rw [hr.set_eq u v]
    exact hmem _

/-! ## Loads -/

/-- Settles O22: a load copies the operand, from the state that the operand read leaves. -/
theorem loadsCopyTheOperand : Obligations.LoadsCopyTheOperand := by
  intro o s
  exact ⟨completes_copy byteRegister_a rfl (afterOperand_reg s o) (afterOperand_flag s o) (readsOnly_withCpu o s),
    completes_copy byteRegister_x rfl (afterOperand_reg s o) (afterOperand_flag s o) (readsOnly_withCpu o s),
    completes_copy byteRegister_y rfl (afterOperand_reg s o) (afterOperand_flag s o) (readsOnly_withCpu o s)⟩

/-! ## Stores -/

/-- An instruction that is one bus write of a register's byte at the effective address. -/
theorem completes_store {i : Instr} {o : Operand} {s : State} {base : Nat} (src : State → Byte)
    (hsrc : src (addrMode o s).2 = src s)
    (hexec : exec i s = runInstr base o (fun u => quiet (u.busWrite u.cpu.ea (src u))) s) :
    Completes i s fun t => Stored (s.operandAddr o) (src s) (addrMode o s).2 t ∧ Keeps [] [] s t := by
  rw [← hsrc]
  exact ⟨_, hexec, (stored_busWrite (addrMode o s).2 (s.operandAddr o) _).withCpu _,
    keeps_of_exec hexec (fun r _ => by simp) fun f _ hU => by simp [hU]⟩

/-- Settles O23: the mode changes no memory and none of A, X and Y, and the write that follows is one store. -/
theorem storesWriteOneByte : Obligations.StoresWriteOneByte := by
  intro o s
  exact ⟨cpuMemoryKept_addrMode o s, ppuMemoryKept_addrMode o s,
    completes_store (fun u => u.cpu.a) (addrMode_a o s) rfl,
    completes_store (fun u => u.cpu.x) (addrMode_x o s) rfl,
    completes_store (fun u => u.cpu.y) (addrMode_y o s) rfl⟩

/-! ## Transfers -/

/-- A transfer with `SetZN`: mode IMP has written `fetched` only, so the copy is made from the start. -/
theorem completes_transfer {i : Instr} {s : State} {r : Reg} {get : State → Byte} {set : State → Byte → State}
    (hr : ByteRegister r get set) (src : State → Byte) (hsrc : src (addrMode .imp s).2 = src s)
    (hexec : exec i s = runInstr 2 .imp (fun u => quiet ((set u (src u)).setZN (src u))) s) :
    Completes i s fun t => get t = src s ∧ ZnOf (src s) t ∧ Keeps [r] [.Z, .N] s t ∧ TouchesNoMemory s t := by
  rw [← hsrc]
  exact completes_copy hr hexec (addrMode_reg .imp s) (addrMode_flag .imp s) fun c => touchesNoMemory_withCpu s c

/-- TXS copies without `SetZN` (R181). -/
theorem completes_txs (s : State) :
    Completes .txs s fun t => t.cpu.s = s.cpu.x ∧ Keeps [.S] [] s t ∧ TouchesNoMemory s t := by
  refine ⟨_, rfl, rfl, keeps_of_exec (i := .txs) rfl (fun q hq => ?regs) fun f _ hU => ?flags,
    touchesNoMemory_withCpu s _⟩
  case regs =>
    rw [complete_reg, quiet_state, byteRegister_s.reg_set _ _ q (by simpa using hq), addrMode_reg]
  case flags =>
    simp only [complete_flag, quiet_state, flag_setS, addrMode_flag, hU, if_false]

/-- Settles O24: five transfers are one copy with `SetZN`, TXS is one without. -/
theorem transfersCopyARegister : Obligations.TransfersCopyARegister := by
  intro s
  exact ⟨completes_transfer byteRegister_x (fun u => u.cpu.a) rfl rfl,
    completes_transfer byteRegister_y (fun u => u.cpu.a) rfl rfl,
    completes_transfer byteRegister_a (fun u => u.cpu.x) rfl rfl,
    completes_transfer byteRegister_a (fun u => u.cpu.y) rfl rfl,
    completes_transfer byteRegister_x (fun u => u.cpu.s) rfl rfl, completes_txs s⟩

end Sys2Proof.Machine
end

section
/-! SUPPORT. The sum of ADC and SBC as a number: result byte, overflow, and the complement that makes a subtraction
an addition (42_arithmetic_logic.md R190 to R194). -/

namespace Sys2Proof.Machine

/-- The overflow rule in words: equal signs of the terms, another one of the result (R191). -/
theorem addOverflow_eq_signRule (a m : Byte) (c : Bool) :
    addOverflow a m c = decide (a.msb = m.msb ∧ (addByte a m c).msb ≠ a.msb) := by
  rw [addOverflow, BitVec.msb_and, BitVec.msb_not, BitVec.msb_xor, BitVec.msb_xor]
  cases a.msb <;> cases m.msb <;> cases (addByte a m c).msb <;> rfl

/-- A byte as a signed number. -/
theorem byte_toInt (a : Byte) : a.toInt = if 128 ≤ a.toNat then (a.toNat : Int) - 256 else a.toNat := by
  rw [BitVec.toInt_eq_toNat_cond]
  split <;> split <;> omega

theorem byte_msb (a : Byte) : a.msb = decide (128 ≤ a.toNat) := BitVec.msb_eq_decide a

theorem addByte_toNat (a m : Byte) (c : Bool) :
    (addByte a m c).toNat = (a.toNat + m.toNat + carryValue c) % 256 := rfl

theorem carryValue_le_one (c : Bool) : carryValue c ≤ 1 := by cases c <;> decide

/-- The sign rule says that the signed sum does not fit in a byte. -/
theorem addOverflow_eq_range (a m : Byte) (c : Bool) :
    addOverflow a m c =
      decide (a.toInt + m.toInt + carryValue c < -128 ∨ 127 < a.toInt + m.toInt + carryValue c) := by
  have ha := a.isLt
  have hm := m.isLt
  have hc := carryValue_le_one c
  rw [addOverflow_eq_signRule, decide_eq_decide, byte_toInt, byte_toInt]
  simp only [byte_msb, ne_eq, decide_eq_decide]
  rw [addByte_toNat]
  omega

theorem complement_toNat (m : Byte) : (m ^^^ 0xFF).toNat = 255 - m.toNat := by
  rw [show (0xFF : Byte) = BitVec.allOnes 8 from rfl, BitVec.xor_allOnes, BitVec.toNat_not]

theorem complement_toInt (m : Byte) : (m ^^^ 0xFF).toInt = -1 - m.toInt := by
  have hm := m.isLt
  rw [byte_toInt, byte_toInt, complement_toNat]
  omega

/-- The sum with the complement is the difference with the borrow `1 - C`, modulo 256 (R194). -/
theorem addByte_complement_toNat (a m : Byte) (c : Bool) :
    ((addByte a (m ^^^ 0xFF) c).toNat : Int) = ((a.toNat : Int) - m.toNat - (1 - carryValue c)) % 256 := by
  have hm := m.isLt
  rw [addByte_toNat, complement_toNat]
  omega

/-- The sum with the complement has a ninth bit when the difference needs no borrow. -/
theorem addSum_complement_gt_iff (a m : Byte) (c : Bool) :
    addSum a (m ^^^ 0xFF) c > 0xFF ↔ m.toNat + 1 ≤ a.toNat + carryValue c := by
  have hm := m.isLt
  rw [addSum, complement_toNat]
  omega

/-- The sum with the complement overflows when the signed difference does not fit in a byte. -/
theorem addOverflow_complement_eq_range (a m : Byte) (c : Bool) :
    addOverflow a (m ^^^ 0xFF) c = decide
      (a.toInt - m.toInt - (1 - carryValue c) < -128 ∨ 127 < a.toInt - m.toInt - (1 - carryValue c)) := by
  rw [addOverflow_eq_range, complement_toInt, decide_eq_decide]
  omega

end Sys2Proof.Machine
end

section
/-! SUPPORT. Arithmetic and logic (42_arithmetic_logic.md R190 to R207): after the operand read, an instruction writes
registers and flags, or stores one byte. -/

namespace Sys2Proof.Machine

/-! ## The frame after an operand read -/

/-- The frame of an instruction that after the operand read writes only the registers `rs` and the flags `fs`. -/
theorem frame_of_operandRead {i : Instr} {o : Operand} {s u : State} {rs : List Reg} {fs : List Flag} {base b : Nat}
    {s1 s2 : Bool} (hexec : exec i s = .next (complete base s1 ⟨u, s2, b⟩))
    (hcpu : u = (s.afterOperand o).withCpu u.cpu) (hreg : ∀ r, r ∉ rs → u.reg r = s.reg r)
    (hflag : ∀ f, f ∉ fs → u.flag f = s.flag f) :
    Keeps rs fs s (complete base s1 ⟨u, s2, b⟩) ∧ ReadsOnly o s (complete base s1 ⟨u, s2, b⟩) := by
  refine ⟨keeps_of_exec hexec (fun r hr => ?_) (fun f hf hU => ?_), ?_⟩
  · rw [complete_reg, hreg r hr]
  · rw [complete_flag, if_neg hU, hflag f hf]
  · rw [complete_eq, hcpu, withCpu_withCpu]
    exact readsOnly_withCpu o s _

theorem Completes.mono {i : Instr} {s : State} {p q : State → Prop} (h : Completes i s p) (hpq : ∀ t, p t → q t) :
    Completes i s q := by
  obtain ⟨t, ht, hp⟩ := h
  exact ⟨t, ht, hpq t hp⟩

@[simp] theorem afterOperand_a (s : State) (o : Operand) : (s.afterOperand o).cpu.a = s.cpu.a := by
  rw [State.afterOperand, fetch_a, addrMode_a]

@[simp] theorem afterOperand_x (s : State) (o : Operand) : (s.afterOperand o).cpu.x = s.cpu.x := by
  rw [State.afterOperand, fetch_x, addrMode_x]

@[simp] theorem afterOperand_y (s : State) (o : Operand) : (s.afterOperand o).cpu.y = s.cpu.y := by
  rw [State.afterOperand, fetch_y, addrMode_y]

theorem afterOperand_ea (s : State) (o : Operand) : (s.afterOperand o).cpu.ea = s.operandAddr o := fetch_ea o _

/-! ## ADC and SBC -/

@[simp] theorem addToA_a (s : State) (m : Byte) : (s.addToA m).cpu.a = addByte s.cpu.a m (s.flag .C) := rfl

theorem addToA_eq (s : State) (m : Byte) : s.addToA m = s.withCpu (s.addToA m).cpu := by
  simp only [State.addToA, State.setAddFlags, setFlag_eq, setA_eq, withCpu_withCpu, withCpu_cpu]

theorem addToA_reg (s : State) (m : Byte) (r : Reg) (h : r ≠ .A) : (s.addToA m).reg r = s.reg r := by
  rw [State.addToA, byteRegister_a.reg_set _ _ r h]
  cases r <;> simp [State.reg]

@[simp] theorem addToA_flag (s : State) (m : Byte) (f : Flag) :
    (s.addToA m).flag f = (s.setAddFlags s.cpu.a m (s.flag .C)).flag f := flag_setA _ f _

/-- What ADC and SBC leave, with `m` the byte that they add to A: the operand, or its complement (R193, R194). -/
structure Added (o : Operand) (m : Byte) (s t : State) : Prop where
  result : t.cpu.a = addByte s.cpu.a m (s.flag .C)
  carry : t.flag .C = decide (addSum s.cpu.a m (s.flag .C) > 0xFF)
  overflow : t.flag .V = addOverflow s.cpu.a m (s.flag .C)
  frame : ZnOf t.cpu.a t ∧ Keeps [.A] [.C, .Z, .V, .N] s t ∧ ReadsOnly o s t

theorem completes_add {i : Instr} {o : Operand} {s : State} {m : Byte} {base : Nat} {s1 : Bool}
    (hexec : exec i s = .next (complete base s1 (signalling ((s.afterOperand o).addToA m)))) :
    Completes i s (Added o m s) := by
  refine ⟨_, hexec, by simp, by simp, by simp, znOf_of_flags (by simp) (by simp),
    frame_of_operandRead hexec (addToA_eq _ _) (fun r hr => ?regs) (fun f hf => ?flags)⟩
  case regs => rw [addToA_reg _ _ r (by simpa using hr), afterOperand_reg]
  case flags =>
    simp only [List.mem_cons, List.not_mem_nil, or_false, not_or] at hf
    simp [hf]

theorem completes_adc (o : Operand) (s : State) : Completes (.adc o) s (Added o (s.operandByte o) s) :=
  completes_add rfl

theorem completes_sbc (o : Operand) (s : State) : Completes (.sbc o) s (Added o (s.operandByte o ^^^ 0xFF) s) :=
  completes_add rfl

/-- Settles O25: ADC is the sum of A, the operand and the carry; SBC is that sum with the complement, which is 255
less the operand unsigned and -1 less the operand signed. -/
theorem addAndSubtractUnsignedAndSigned : Obligations.AddAndSubtractUnsignedAndSigned := by
  intro o s m carry sum difference
  refine ⟨(completes_adc o s).mono fun t h => ⟨?_, h.carry, ?_, h.frame⟩,
    (completes_sbc o s).mono fun t h => ⟨?_, ?_, ?_, h.frame⟩⟩
  · rw [h.result]; exact addByte_toNat s.cpu.a m _
  · rw [h.overflow]; exact addOverflow_eq_range s.cpu.a m _
  · rw [h.result]; exact addByte_complement_toNat s.cpu.a m _
  · rw [h.carry, decide_eq_decide]; exact addSum_complement_gt_iff s.cpu.a m _
  · rw [h.overflow]; exact addOverflow_complement_eq_range s.cpu.a m _

/-- Settles O26: V is the overflow of the addition, of the complement for SBC, and the result is the added byte. -/
theorem overflowIsTheSignRule : Obligations.OverflowIsTheSignRule := by
  intro o s
  refine ⟨(completes_adc o s).mono fun t h => ?_, (completes_sbc o s).mono fun t h => ?_⟩
  · rw [h.overflow, h.result]; exact addOverflow_eq_signRule _ _ _
  · rw [h.overflow, h.result]; exact addOverflow_eq_signRule _ _ _

/-! ## The decimal flag -/

/-- Writes of two flags commute: they leave the same flags. -/
theorem withFlag_comm {f g : Flag} (h : f ≠ g) (b c : Bool) (p : Byte) :
    withFlag f b (withFlag g c p) = withFlag g c (withFlag f b p) := by
  apply eq_of_flags
  intro k
  simp only [flagOf_withFlag]
  by_cases hf : k = f
  · subst hf; simp [h]
  · simp [hf]

theorem setFlag_comm {f g : Flag} (h : f ≠ g) (b c : Bool) (s : State) :
    (s.setFlag g c).setFlag f b = (s.setFlag f b).setFlag g c :=
  congrArg s.setP (withFlag_comm h b c s.cpu.p)

theorem setA_setFlag (s : State) (f : Flag) (b : Bool) (v : Byte) :
    (s.setFlag f b).setA v = (s.setA v).setFlag f b := rfl

/-- The addressing mode reads no flag and keeps them. -/
theorem addrMode_setFlag (o : Operand) (s : State) (f : Flag) (b : Bool) :
    addrMode o (s.setFlag f b) = ((addrMode o s).1, (addrMode o s).2.setFlag f b) := by
  cases o
  case ind p => simp only [addrMode, setFlag_eq, setEa_eq, busRead_withCpu, withCpu_cpu, busRead_cpu, withCpu_withCpu]
  case izx a | izy a =>
    simp only [addrMode, zeroPagePointer_eq, setFlag_eq, busRead_withCpu]; rfl
  all_goals rfl

/-- `Fetch()` reads no flag and keeps them. -/
theorem fetch_setFlag (o : Operand) (s : State) (f : Flag) (b : Bool) :
    fetch o (s.setFlag f b) = ((fetch o s).1, (fetch o s).2.setFlag f b) := by
  cases o
  case imp => rfl
  case imm a => rfl
  all_goals simp only [fetch, setFlag_eq, setFetched_eq, busRead_withCpu, withCpu_cpu, busRead_cpu, withCpu_withCpu]

/-- An addition reads and writes no D (R192). -/
theorem addToA_setFlag_D (s : State) (m : Byte) (d : Bool) :
    (s.setFlag .D d).addToA m = (s.addToA m).setFlag .D d := by
  have hC : (s.setFlag .D d).flag .C = s.flag .C := by rw [flag_setFlag, if_neg (by decide)]
  have hflags (a : Byte) (c : Bool) : (s.setFlag .D d).setAddFlags a m c = (s.setAddFlags a m c).setFlag .D d := by
    simp only [State.setAddFlags, setFlag_comm (f := .D) (g := .C) (by decide),
      setFlag_comm (f := .D) (g := .Z) (by decide), setFlag_comm (f := .D) (g := .V) (by decide),
      setFlag_comm (f := .D) (g := .N) (by decide)]
  simp only [State.addToA, hC, setFlag_a, hflags, setA_setFlag]

/-- An instruction that adds a byte made of its operand to A does the same whatever D holds. -/
theorem completes_add_setFlag_D {i : Instr} {o : Operand} {base : Nat} (term : Byte → Byte) (s : State) (d : Bool)
    (hexec : ∀ u, exec i u =
      runInstr base o (fun v => signalling ((fetch o v).2.addToA (term (fetch o v).1))) u) :
    Completes i s fun t => exec i (s.setFlag .D d) = .next (t.setFlag .D d) := by
  refine ⟨_, hexec s, ?_⟩
  rw [hexec, runInstr]
  simp only [addrMode_setFlag, fetch_setFlag, addToA_setFlag_D]
  rw [complete, complete, setFlag_comm (by decide)]
  rfl

/-- Settles O27: mode, operand read and addition commute with a write of D. -/
theorem theDecimalFlagChangesNoArithmetic : Obligations.TheDecimalFlagChangesNoArithmetic := by
  intro o s d
  exact ⟨completes_add_setFlag_D id s d fun _ => rfl, completes_add_setFlag_D (· ^^^ 0xFF) s d fun _ => rfl⟩

/-! ## AND, ORA, EOR, BIT -/

/-- AND, ORA and EOR copy to A the byte `op` of A and the operand (R195 to R197). -/
theorem completes_logic {i : Instr} {o : Operand} {s : State} {base : Nat} {s1 : Bool} (op : Byte → Byte → Byte)
    (hexec : exec i s = .next (complete base s1 (signalling
      (((s.afterOperand o).setA (op (s.afterOperand o).cpu.a (s.operandByte o))).setZN
        (op (s.afterOperand o).cpu.a (s.operandByte o)))))) :
    Completes i s fun t => t.cpu.a = op s.cpu.a (s.operandByte o) ∧ ZnOf t.cpu.a t ∧ Keeps [.A] [.Z, .N] s t ∧
      ReadsOnly o s t := by
  rw [afterOperand_a] at hexec
  refine (completes_copy byteRegister_a hexec (afterOperand_reg s o) (afterOperand_flag s o)
    (readsOnly_withCpu o s)).mono fun t ⟨ha, hzn, frame⟩ => ⟨ha, ?_, frame⟩
  rwa [ha]

theorem setBitFlags_eq (s : State) (a m : Byte) : s.setBitFlags a m = s.withCpu (s.setBitFlags a m).cpu := rfl

@[simp] theorem setBitFlags_reg (s : State) (a m : Byte) (r : Reg) : (s.setBitFlags a m).reg r = s.reg r := by
  cases r <;> rfl

/-- BIT sets Z when A and the operand share no bit (R198). -/
theorem byte_and_eq_zero_iff (a m : Byte) :
    a &&& m = 0 ↔ ∀ k, k < 8 → ¬ (a.getLsbD k = true ∧ m.getLsbD k = true) := by
  rw [BitVec.eq_of_getLsbD_eq_iff]
  simp

/-- BIT writes three flags and nothing else (R198). -/
theorem completes_bit (o : Operand) (s : State) :
    Completes (.bit o) s fun t => t.flag .Z = decide (s.cpu.a &&& s.operandByte o = 0) ∧
      t.flag .N = (s.operandByte o).getLsbD 7 ∧ t.flag .V = (s.operandByte o).getLsbD 6 ∧
      Keeps [] [.Z, .N, .V] s t ∧ ReadsOnly o s t := by
  have hexec : exec (.bit o) s = .next (complete (baseOf bitEncodings o.mode) (addrMode o s).1
      (quiet ((s.afterOperand o).setBitFlags (s.afterOperand o).cpu.a (s.operandByte o)))) := rfl
  rw [afterOperand_a] at hexec
  refine ⟨_, hexec, by simp, by simp, by simp, frame_of_operandRead hexec (setBitFlags_eq _ _ _) (fun r _ => ?_)
    (fun f hf => ?_)⟩
  · rw [setBitFlags_reg, afterOperand_reg]
  · simp only [List.mem_cons, List.not_mem_nil, or_false, not_or] at hf
    simp [hf]

/-- Settles O28: three instructions copy a byte made bit by bit, BIT writes flags. -/
theorem logicalInstructions : Obligations.LogicalInstructions := by
  intro o s m
  refine ⟨(completes_logic (· &&& ·) rfl).mono fun t ⟨ha, rest⟩ => ⟨fun k => ?_, rest⟩,
    (completes_logic (· ||| ·) rfl).mono fun t ⟨ha, rest⟩ => ⟨fun k => ?_, rest⟩,
    (completes_logic (· ^^^ ·) rfl).mono fun t ⟨ha, rest⟩ => ⟨fun k => ?_, rest⟩,
    (completes_bit o s).mono fun t ⟨hZ, rest⟩ => ⟨?_, rest⟩⟩
  · rw [ha, BitVec.getLsbD_and]
  · rw [ha, BitVec.getLsbD_or]
  · rw [ha, BitVec.getLsbD_xor]
  · rw [hZ, decide_eq_true_iff, byte_and_eq_zero_iff]

/-! ## CMP, CPX, CPY -/

theorem setCompareFlags_eq (s : State) (v m : Byte) :
    s.setCompareFlags v m = s.withCpu (s.setCompareFlags v m).cpu := rfl

@[simp] theorem setCompareFlags_reg (s : State) (v m : Byte) (r : Reg) :
    (s.setCompareFlags v m).reg r = s.reg r := by
  cases r <;> rfl

theorem compareFlags_of_flags {r m : Byte} {t : State} (hC : t.flag .C = decide (r.toNat ≥ m.toNat))
    (hZ : t.flag .Z = decide (r - m = 0)) (hN : t.flag .N = (r - m).msb) : CompareFlags r m t := by
  have hr := r.isLt
  have hm := m.isLt
  refine ⟨hC, hZ.trans (decide_eq_decide.2 sub_eq_zero), hN.trans ?_⟩
  rw [byte_msb, decide_eq_decide, BitVec.toNat_sub]
  omega

/-- A comparison of the byte `r`, which the operand read keeps, with the operand (R199 to R201). -/
theorem completes_compare {i : Instr} {o : Operand} {s : State} {r : Byte} {base : Nat} {s1 s2 : Bool} {b : Nat}
    (hexec : exec i s = .next (complete base s1 ⟨(s.afterOperand o).setCompareFlags r (s.operandByte o), s2, b⟩)) :
    Completes i s fun t =>
      CompareFlags r (s.operandByte o) t ∧ Keeps [] [.C, .Z, .N] s t ∧ ReadsOnly o s t := by
  refine ⟨_, hexec, compareFlags_of_flags (by simp) (by simp) (by simp),
    frame_of_operandRead hexec (setCompareFlags_eq _ _ _) (fun q _ => ?_) (fun f hf => ?_)⟩
  · rw [setCompareFlags_reg, afterOperand_reg]
  · simp only [List.mem_cons, List.not_mem_nil, or_false, not_or] at hf
    simp [hf]

/-- Settles O29: three comparisons of a register that the operand read keeps. -/
theorem comparesSetFlagsOnly : Obligations.ComparesSetFlagsOnly := by
  intro o s m
  rw [← afterOperand_a s o, ← afterOperand_x s o, ← afterOperand_y s o]
  exact ⟨completes_compare rfl, completes_compare rfl, completes_compare rfl⟩

/-! ## INC, DEC, INX, INY, DEX, DEY -/

/-- INC and DEC store the byte `v` at the address of the operand (R202, R203). -/
theorem completes_writeBack {i : Instr} {o : Operand} {s : State} {v : Byte} {base : Nat} {s1 : Bool}
    (hexec : exec i s = .next (complete base s1
      (quiet (((s.afterOperand o).busWrite (s.afterOperand o).cpu.ea v).setZN v)))) :
    Completes i s fun t => Stored (s.operandAddr o) v (s.afterOperand o) t ∧ ZnOf v t ∧ Keeps [] [.Z, .N] s t := by
  rw [afterOperand_ea] at hexec
  refine ⟨_, hexec, (stored_busWrite _ _ v).withCpu _, znOf_of_flags (by simp) (by simp),
    keeps_of_exec hexec (fun r _ => by simp) (fun f hf hU => ?_)⟩
  simp only [List.mem_cons, List.not_mem_nil, or_false, not_or] at hf
  simp [hU, hf]

/-- One less than a byte, modulo 256, is 255 more. -/
theorem byte_sub_one_toNat (m : Byte) : (m - 1).toNat = (m.toNat + 255) % 256 := by
  rw [Nat.add_comm, BitVec.toNat_sub]; rfl

/-- Settles O30: the operand read, then the store of the next or the previous byte. -/
theorem incAndDecWriteBack : Obligations.IncAndDecWriteBack := by
  intro o s m up down
  refine ⟨cpuMemoryKept_afterOperand s o, ppuMemoryKept_afterOperand s o, completes_writeBack rfl, ?_⟩
  rw [show down = m - 1 from BitVec.eq_of_toNat_eq (byte_sub_one_toNat m).symm]
  exact completes_writeBack rfl

/-- An index register takes the byte `step` of its own; mode IMP has written `fetched` only (R204 to R207). -/
theorem completes_count {i : Instr} {s : State} {r : Reg} {get : State → Byte} {set : State → Byte → State}
    (hr : ByteRegister r get set) (step : Byte → Byte)
    (hget : get (addrMode .imp s).2 = get s)
    (hexec : exec i s = runInstr 2 .imp (fun u => quiet ((set u (step (get u))).setZN (step (get u)))) s) :
    Completes i s fun t => (get t).toNat = (step (get s)).toNat ∧ ZnOf (get t) t ∧ Keeps [r] [.Z, .N] s t ∧
      TouchesNoMemory s t := by
  refine (completes_transfer hr (fun u => step (get u)) (congrArg step hget) hexec).mono
    fun t ⟨hv, hzn, rest⟩ => ⟨congrArg _ hv, ?_, rest⟩
  rwa [hv]

/-- Settles O31: two registers, each one up and one down; 255 is -1 modulo 256. -/
theorem indexRegistersCountAndWrap : Obligations.IndexRegistersCountAndWrap := by
  intro s
  refine ⟨completes_count byteRegister_x (· + 1) rfl rfl, completes_count byteRegister_y (· + 1) rfl rfl, ?_, ?_⟩
  · rw [← byte_sub_one_toNat]; exact completes_count byteRegister_x (· - 1) rfl rfl
  · rw [← byte_sub_one_toNat]; exact completes_count byteRegister_y (· - 1) rfl rfl

end Sys2Proof.Machine
end

section
/-! SUPPORT. Shifts and rotates (43_shift_rotate.md R220 to R224): the result byte and the bit shifted out as numbers,
and the end that the four instructions share, in the accumulator and the memory forms. -/

namespace Sys2Proof.Machine

/-! ## The byte and the bit of a shift -/

theorem byte_bit7 (m : Byte) : m.getLsbD 7 = decide (128 ≤ m.toNat) := byte_msb m

theorem byte_bit0 (m : Byte) : m.getLsbD 0 = decide (m.toNat % 2 = 1) := Nat.testBit_zero _

theorem aslByte_toNat (m : Byte) : (aslByte m).toNat = 2 * m.toNat % 256 := by
  rw [aslByte, BitVec.toNat_shiftLeft, Nat.shiftLeft_eq, Nat.mul_comm]

theorem lsrByte_toNat (m : Byte) : (lsrByte m).toNat = m.toNat / 2 := by
  rw [lsrByte, BitVec.toNat_ushiftRight, Nat.shiftRight_eq_div_pow]

/-- ROL: the shift has left bit 0 clear, so the carry that enters there is added (R223). -/
theorem rolByte_toNat (m : Byte) (c : Bool) : (rolByte m c).toNat = (2 * m.toNat + carryValue c) % 256 := by
  have hc : carryValue c < 2 ^ 1 := Nat.lt_succ_of_le (carryValue_le_one c)
  have hshift : (aslByte m).toNat = 2 ^ 1 * (m.toNat % 128) := by rw [aslByte_toNat]; omega
  rw [rolByte, BitVec.toNat_or, BitVec.toNat_ofNat, Nat.mod_eq_of_lt (by omega), ← aslByte, hshift,
    ← Nat.two_pow_add_eq_or_of_lt hc]
  omega

/-- ROR: the shift has left bit 7 clear, so the carry that enters there is added (R224). -/
theorem rorByte_toNat (m : Byte) (c : Bool) : (rorByte m c).toNat = 128 * carryValue c + m.toNat / 2 := by
  have hm := m.isLt
  have hcarry : (BitVec.ofNat 8 (carryValue c) <<< 7).toNat = 2 ^ 7 * carryValue c := by cases c <;> rfl
  rw [rorByte, BitVec.toNat_or, hcarry, ← lsrByte, lsrByte_toNat, ← Nat.two_pow_add_eq_or_of_lt (by omega)]

/-! ## The end of a shift -/

/-- Mode IMP reads nothing through the bus (R163). -/
theorem afterOperand_imp (s : State) : s.afterOperand .imp = s.withCpu { s.cpu with fetched := s.cpu.a } := rfl

theorem setShiftFlags_eq (s : State) (out : Bool) (r : Byte) :
    s.setShiftFlags out r = s.withCpu (s.setShiftFlags out r).cpu := rfl

@[simp] theorem setShiftFlags_reg (s : State) (out : Bool) (r : Byte) (q : Reg) :
    (s.setShiftFlags out r).reg q = s.reg q := by
  cases q <;> rfl

/-- The write-back of a shift changes no flag (R164). -/
@[simp] theorem shiftResult_flag (o : Operand) (out : Bool) (r : Byte) (s : State) (f : Flag) :
    (shiftResult o out r s).state.flag f = (s.setShiftFlags out r).flag f := by
  by_cases h : o = .imp
  · rw [h, shiftResult_imp, quiet_state, flag_setA]
  · rw [shiftResult_memory o out r s h, quiet_state, busWrite_flag]

/-- A shift that pushes out the bit `out` and gives the byte `r`, from the state that the operand read leaves: the
accumulator form writes A and no memory, a memory form makes one store and writes no register (R220). -/
theorem completes_shift {i : Instr} {o : Operand} {s : State} {out : Bool} {r : Byte} {base : Nat} {s1 : Bool}
    (hexec : exec i s = .next (complete base s1 (shiftResult o out r (s.afterOperand o)))) :
    Completes i s (Shifted o r.toNat out s) := by
  have hflags (f : Flag) (hf : f ∉ [Flag.C, .Z, .N]) (hU : f ≠ .U) :
      (complete base s1 (shiftResult o out r (s.afterOperand o))).flag f = s.flag f := by
    simp only [List.mem_cons, List.not_mem_nil, or_false, not_or] at hf
    simp [hU, hf]
  unfold Shifted
  rw [BitVec.ofNat_toNat, BitVec.setWidth_eq]
  refine ⟨_, hexec, by simp, znOf_of_flags (by simp) (by simp), fun himp => ?accumulator, fun hmem => ?memory⟩
  case accumulator =>
    subst himp
    rw [shiftResult_imp] at hexec hflags ⊢
    refine ⟨by simp, keeps_of_exec hexec (fun q hq => ?_) hflags, ?_⟩
    · rw [complete_reg, quiet_state, byteRegister_a.reg_set _ _ q (by simpa using hq), setShiftFlags_reg,
        afterOperand_reg]
    · rw [complete_eq, quiet_state, setA_eq, withCpu_withCpu, setShiftFlags_eq, withCpu_withCpu, afterOperand_imp,
        withCpu_withCpu]
      exact touchesNoMemory_withCpu s _
  case memory =>
    rw [shiftResult_memory o out r _ hmem, afterOperand_ea] at hexec hflags ⊢
    refine ⟨cpuMemoryKept_afterOperand s o, ppuMemoryKept_afterOperand s o, ?_,
      keeps_of_exec hexec (fun q _ => by simp) hflags⟩
    rw [complete_eq, quiet_state, setShiftFlags_eq, busWrite_withCpu, withCpu_withCpu]
    exact (stored_busWrite _ _ r).withCpu _

/-- Settles O32: each of the four is one shift of the operand byte, with the carry that the operand read keeps. -/
theorem shiftsAndRotatesMoveOneBit : Obligations.ShiftsAndRotatesMoveOneBit := by
  intro o s m c
  rw [← byte_bit7, ← byte_bit0, show c = carryValue (s.flag .C) from rfl, ← aslByte_toNat, ← rolByte_toNat,
    ← rorByte_toNat, ← lsrByte_toNat, ← afterOperand_flag s o]
  exact ⟨completes_shift rfl, completes_shift rfl, completes_shift rfl, completes_shift rfl⟩

end Sys2Proof.Machine
end

section
/-! SUPPORT. The stack after several pushes, and the word that two pulls give back (10_state.md R21, R23). -/

namespace Sys2Proof.Machine

/-- Fewer than 256 steps down from the pointer do not come back to one cell of page 1. -/
theorem stack_sub_ne {p : Byte} {j k : Nat} (hjk : j < k) (hk : k < 256) :
    256 + (p - BitVec.ofNat 8 j).toNat ≠ 256 + (p - BitVec.ofNat 8 k).toNat := by
  have hp := p.isLt
  simp only [BitVec.toNat_sub, BitVec.toNat_ofNat]
  omega

/-- One more push, as long as the bytes do not fill the page. -/
theorem Pushed.push {bs : List Byte} {s t : State} (h : Pushed bs s t) (hlen : bs.length < 256) (v : Byte) :
    Pushed (bs ++ [v]) s (t.push v) where
  pointer := by
    rw [push_s, h.pointer, List.length_append, BitVec.ofNat_add, sub_sub]; rfl
  bytes k b hb := by
    rcases Nat.lt_or_ge k bs.length with hk | hk
    · rw [List.getElem?_append_left hk] at hb
      have hother : ¬ sameByte t.cfg (stackAddr t.cpu.s) (stackAddr (s.cpu.s - BitVec.ofNat 8 k)) := by
        have hne := stack_sub_ne (p := s.cpu.s) hk hlen
        rw [h.pointer, sameByte_stackAddr_iff, ramIndex, stackAddr_toNat]
        omega
      rw [peek_push_other hother, h.bytes k b hb]
    · rw [List.getElem?_append_right hk, List.getElem?_singleton] at hb
      obtain ⟨hlast, ⟨⟩⟩ := Option.ite_none_right_eq_some.1 hb
      rw [show k = bs.length by omega, ← h.pointer]
      exact peek_push_same (sameByte_stackAddr_self t.cfg t.cpu.s) v
  kept a ha hn := by
    have hlast : ¬ sameByte t.cfg (stackAddr t.cpu.s) a := by
      rw [h.pointer, sameByte_stackAddr_iff, ← sameByte_stackAddr_iff s.cfg]
      exact hn bs.length (by simp)
    rw [peek_push_other hlast, h.kept a ha fun k hk => hn k (by simp; omega)]

theorem pushed_push16 (s : State) (w : Addr) : Pushed [highByte w, lowByte w] s (s.push16 w) :=
  (pushed_push s (highByte w)).push (show 1 < 256 by decide) (lowByte w)

/-- Register writes before and after the pushes that leave the pointer alone. -/
theorem Pushed.withCpu {bs : List Byte} {s t : State} {c d : Cpu} (h : Pushed bs (s.withCpu c) t)
    (hc : c.s = s.cpu.s) (hd : d.s = t.cpu.s) : Pushed bs s (t.withCpu d) where
  pointer := by rw [withCpu_cpu, hd, h.pointer, withCpu_cpu, hc]
  bytes k b hb := by
    rw [peek_withCpu, ← hc]
    exact h.bytes k b hb
  kept a ha hn := by
    rw [← hc] at hn
    rw [peek_withCpu, h.kept a ha hn, peek_withCpu]

/-- The pulls find the pushed bytes, the last one first. -/
theorem Pushed.stackByte {bs : List Byte} {s t : State} (h : Pushed bs s t) {k : Nat} {b : Byte}
    (hb : bs[k]? = some b) : t.stackByte (bs.length - k) = b := by
  obtain ⟨hk, -⟩ := List.getElem?_eq_some_iff.1 hb
  have hlength : BitVec.ofNat 8 bs.length = BitVec.ofNat 8 k + BitVec.ofNat 8 (bs.length - k) := by
    rw [← BitVec.ofNat_add, Nat.add_sub_of_le hk.le]
  rw [State.stackByte, h.pointer, hlength, ← sub_sub, sub_add_cancel]
  exact h.bytes k b hb

theorem push16_cpu (s : State) (w : Addr) : (s.push16 w).cpu = { s.cpu with s := s.cpu.s - 1 - 1 } := by
  rw [push16_eq]; rfl

@[simp] theorem push16_flag (s : State) (w : Addr) (f : Flag) : (s.push16 w).flag f = s.flag f := by
  rw [State.flag, push16_cpu]; rfl

theorem push16_reg (s : State) (w : Addr) {r : Reg} (h : r ≠ .S) : (s.push16 w).reg r = s.reg r := by
  rw [push16_eq, byteRegister_s.reg_set _ _ r h]
  cases r <;> rfl

theorem stackByte_setFetched (s : State) (v : Byte) (k : Nat) : (s.setFetched v).stackByte k = s.stackByte k :=
  peek_withCpu s _ _

/-- A word pulled: the two bytes above the pointer, low byte first. -/
theorem pull16_eq_stackBytes (s : State) :
    s.pull16 = (wordOf (s.stackByte 1) (s.stackByte 2), s.setS (s.cpu.s + 2)) := by
  have htwo : s.cpu.s + 1 + 1 = s.cpu.s + 2 := add_assoc _ _ _
  rw [pull16_eq, htwo, State.stackByte, State.stackByte, State.peek, State.peek, busRead_stack, busRead_stack]
  rfl

end Sys2Proof.Machine
end

section
/-! SUPPORT. Branches, jumps, call and return (44_branch_jump.md R230 to R241): an instruction leaves its mode's writes,
the stack as it uses it, and a new `PC`. -/

namespace Sys2Proof.Machine

theorem setPc_reg (s : State) (v : Addr) {r : Reg} (h : r ≠ .PC) : (s.setPc v).reg r = s.reg r := by
  cases r <;> trivial

/-! ## Branches -/

/-- A word plus a byte with its sign extended, modulo 65536 (R155). -/
theorem add_signExtend_toNat (pc : Addr) (off : Byte) :
    ((pc + off.signExtend 16).toNat : Int) = ((pc.toNat : Int) + off.toInt) % 65536 := by
  rw [← BitVec.toInt_signExtend_of_le (x := off) (show 8 ≤ 16 by decide), BitVec.toInt_eq_toNat_cond,
    BitVec.toNat_add]
  split <;> omega

theorem branchIf_reg (cond : Bool) (s : State) {r : Reg} (h : r ≠ .PC) : (branchIf cond s).state.reg r = s.reg r := by
  cases cond with
  | false => rfl
  | true => exact setPc_reg (s.setEa _) _ h

@[simp] theorem branchIf_flag (cond : Bool) (s : State) (f : Flag) : (branchIf cond s).state.flag f = s.flag f := by
  cases cond <;> rfl

theorem branchIf_withCpu (cond : Bool) (s : State) :
    (branchIf cond s).state = s.withCpu (branchIf cond s).state.cpu := by
  cases cond <;> rfl

/-- A branch on `cond`, after mode REL has put the signed offset into `rel` (R155, R230). -/
theorem completes_branch {i : Instr} {off : Byte} {cond : Bool} {s : State}
    (hexec : exec i s = .next (complete 2 false (branchIf cond (s.setRel (off.signExtend 16))))) :
    Branches i off cond s := by
  refine ⟨_, hexec, fun h => ?notTaken, fun h => ?taken,
    keeps_of_exec hexec (fun r hr => ?regs) (fun f _ hU => ?flags), ?memory⟩
  case notTaken => subst h; exact ⟨rfl, rfl⟩
  case taken =>
    subst h
    have hcycles := complete_countdown 2 false (branchIf true (s.setRel (off.signExtend 16)))
    rw [branchIf_b, if_pos rfl] at hcycles
    exact ⟨add_signExtend_toNat s.cpu.pc off, fun hsame => hcycles.trans (congrArg (2 + ·) (if_pos hsame)),
      fun hother => hcycles.trans (congrArg (2 + ·) (if_neg hother))⟩
  case regs =>
    rw [complete_reg, branchIf_reg _ _ (by simpa using hr)]
    exact addrMode_reg (.rel off) s r
  case flags => simp [hU]
  case memory =>
    rw [complete_eq, branchIf_withCpu, withCpu_withCpu]
    exact touchesNoMemory_withCpu s _

/-- Settles O33: each of the eight is one branch on its flag, which mode REL keeps. -/
theorem branchesGoWhereTheirFlagSays : Obligations.BranchesGoWhereTheirFlagSays := by
  intro off s
  exact ⟨completes_branch rfl, completes_branch rfl, completes_branch rfl, completes_branch rfl,
    completes_branch rfl, completes_branch rfl, completes_branch rfl, completes_branch rfl⟩

/-! ## JMP -/

/-- The frame of an instruction that ends by writing `PC`, from a state `u` in which it has written no register but
`rs`, and no flag. -/
theorem keeps_of_jump {i : Instr} {s u : State} {rs : List Reg} {target : Addr} {base : Nat} {s1 : Bool}
    (hexec : exec i s = .next (complete base s1 (quiet (u.setPc target))))
    (hreg : ∀ r, r ∉ rs → u.reg r = s.reg r) (hflag : ∀ f, u.flag f = s.flag f) :
    Keeps (rs ++ [Reg.PC]) [] s (complete base s1 (quiet (u.setPc target))) := by
  refine keeps_of_exec hexec (fun r hr => ?_) (fun f _ hU => by simp [hU, hflag])
  obtain ⟨hrs, hPC⟩ : r ∉ rs ∧ r ≠ .PC := by simpa using hr
  rw [complete_reg, quiet_state, setPc_reg _ _ hPC, hreg r hrs]

/-- JMP goes to the effective address; of the rest, only the mode's reads show (R239). -/
theorem completes_jmp (o : Operand) (s : State) :
    Completes (.jmp o) s fun t => t.cpu.pc = s.operandAddr o ∧ t.cpu.countdown = baseOf jmpEncodings o.mode ∧
      Keeps [.PC] [] s t ∧ CpuMemoryKept s t ∧ PpuMemoryKept s t ∧ t.ppu = (addrMode o s).2.ppu := by
  have hexec : exec (.jmp o) s = .next (complete (baseOf jmpEncodings o.mode) (addrMode o s).1
      (quiet ((addrMode o s).2.setPc (s.operandAddr o)))) := rfl
  refine ⟨_, hexec, by simp, by simp,
    keeps_of_jump (rs := []) hexec (fun r _ => addrMode_reg o s r) (addrMode_flag o s), ?_⟩
  rw [complete_eq, quiet_state, setPc_eq, withCpu_withCpu]
  exact ⟨(cpuMemoryKept_addrMode o s).withCpu _, ppuMemoryKept_addrMode o s, rfl⟩

/-- The last byte of a page is followed by its first, 255 below (R159). -/
theorem indirectHigh_eq (p : Addr) : indirectHigh p = if p.toNat % 256 = 255 then p - 255#16 else p + 1 := by
  have hlow : lowByte p = 0xFF ↔ p.toNat % 256 = 255 := by rw [← BitVec.toNat_inj, lowByte_toNat]; rfl
  simp only [indirectHigh, hlow]
  split
  · apply BitVec.eq_of_toNat_eq
    have hp := p.isLt
    rw [wordOf_toNat, highByte_toNat]
    simp only [BitVec.toNat_sub, BitVec.ofNat_eq_ofNat, BitVec.toNat_ofNat]
    omega
  · rfl

/-- Settles O34: mode ABS reads nothing, mode IND makes the two pointer reads. -/
theorem jumpsIncludingThePageWrap : Obligations.JumpsIncludingThePageWrap := by
  intro w s
  refine ⟨(completes_jmp (.abs w) s).mono fun t ⟨hpc, _, frame⟩ => ⟨hpc, frame⟩, ?_⟩
  rw [← indirectHigh_eq]
  refine (completes_jmp (.ind w) s).mono fun t ⟨hpc, rest⟩ => ⟨?_, rest⟩
  rw [hpc, Nat.add_comm, Nat.mul_comm]
  exact wordOf_toNat _ _

/-! ## JSR and RTS -/

/-- JSR pushes the address before the next instruction and goes to its operand (R240). -/
theorem completes_jsr (w : Addr) (s : State) :
    Completes (.jsr w) s fun t => t.cpu.pc = w ∧
      Pushed [highByte (s.cpu.pc - 1), lowByte (s.cpu.pc - 1)] s t ∧ Keeps [.S, .PC] [] s t ∧
      PpuMemoryKept s t ∧ t.ppu = s.ppu := by
  have hexec : exec (.jsr w) s = .next (complete 6 false (quiet
      (((s.setEa w).push16 (s.cpu.pc - 1)).setPc ((s.setEa w).push16 (s.cpu.pc - 1)).cpu.ea))) := rfl
  refine ⟨_, hexec, by simp [push16_cpu], ?pushed,
    keeps_of_jump (rs := [.S]) hexec (fun r hr => ?regs) (fun f => by simp), ?ppuMemory, by simp [push16_eq]⟩
  case pushed =>
    rw [complete_eq, quiet_state, setPc_eq, withCpu_withCpu]
    exact (pushed_push16 (s.setEa w) _).withCpu rfl rfl
  case regs =>
    rw [push16_reg _ _ (by simpa using hr)]
    exact addrMode_reg (.abs w) s r
  case ppuMemory => apply ppuMemoryKept_of_eq <;> simp [push16_eq]

/-- RTS goes to the word above the pointer, plus 1 (R241). -/
theorem completes_rts (s : State) :
    Completes .rts s fun t => t.cpu.pc = wordOf (s.stackByte 1) (s.stackByte 2) + 1 ∧ t.cpu.s = s.cpu.s + 2 ∧
      Keeps [.S, .PC] [] s t ∧ TouchesNoMemory s t := by
  have hexec : exec .rts s = .next (complete 6 false (quiet
      ((s.setFetched s.cpu.a).pull16.2.setPc ((s.setFetched s.cpu.a).pull16.1 + 1)))) := rfl
  rw [pull16_eq_stackBytes, stackByte_setFetched, stackByte_setFetched, setFetched_s] at hexec
  refine ⟨_, hexec, by simp, by simp, keeps_of_jump (rs := [.S]) hexec (fun r hr => ?regs) (fun f => by simp),
    ?memory⟩
  case regs =>
    rw [byteRegister_s.reg_set _ _ r (by simpa using hr)]
    exact addrMode_reg .imp s r
  case memory =>
    rw [complete_eq, quiet_state, setPc_eq, withCpu_withCpu]
    exact touchesNoMemory_withCpu s _

theorem Keeps.trans {rs : List Reg} {fs : List Flag} {s t u : State} (h : Keeps rs fs s t) (h' : Keeps rs fs t u) :
    Keeps rs fs s u where
  regs r hr := (h'.regs r hr).trans (h.regs r hr)
  flags f hf hU := (h'.flags f hf hU).trans (h.flags f hf hU)
  unused := h'.unused
  cfg := h'.cfg.trans h.cfg
  sysCounter := h'.sysCounter.trans h.sysCounter
  clockCount := h'.clockCount.trans h.clockCount
  opcode := h'.opcode.trans h.opcode
  mode := h'.mode.trans h.mode

/-- The registers that may be written have their old values again, so every register is kept. -/
theorem Keeps.of_restored {rs : List Reg} {fs : List Flag} {s t : State} (h : Keeps rs fs s t)
    (hr : ∀ r ∈ rs, t.reg r = s.reg r) : Keeps [] fs s t :=
  { h with regs := fun r _ => if hm : r ∈ rs then hr r hm else h.regs r hm }

/-- RTS finds the two bytes that JSR pushed, and neither of them writes a register but S and PC. -/
theorem completes_rts_after_jsr (w : Addr) (s : State) :
    Completes (.jsr w) s fun t => Completes .rts t fun u =>
      u.cpu.pc = s.cpu.pc ∧ u.cpu.s = s.cpu.s ∧ Keeps [] [] s u := by
  refine (completes_jsr w s).mono fun t ⟨_, hpushed, hjsr, _⟩ =>
    (completes_rts t).mono fun u ⟨hpc, hsp, hrts, _⟩ => ?_
  have hlow : t.stackByte 1 = lowByte (s.cpu.pc - 1) := hpushed.stackByte (k := 1) rfl
  have hhigh : t.stackByte 2 = highByte (s.cpu.pc - 1) := hpushed.stackByte (k := 0) rfl
  have hpc' : u.cpu.pc = s.cpu.pc := by rw [hpc, hlow, hhigh, wordOf_low_high, sub_add_cancel]
  have hsp' : u.cpu.s = s.cpu.s := by rw [hsp, hpushed.pointer]; exact sub_add_cancel _ _
  refine ⟨hpc', hsp', (hjsr.trans hrts).of_restored fun r hr => ?_⟩
  obtain rfl | rfl : r = .S ∨ r = .PC := by simpa using hr
  · exact congrArg BitVec.toNat hsp'
  · exact congrArg BitVec.toNat hpc'

/-- Settles O35: JSR and RTS alone, and one after the other. -/
theorem callAndReturn : Obligations.CallAndReturn := by
  intro w s
  refine ⟨completes_jsr w s, (completes_rts s).mono fun t ⟨hpc, rest⟩ => ⟨?_, rest⟩, completes_rts_after_jsr w s⟩
  rw [hpc, BitVec.toNat_add, wordOf_toNat, Nat.mul_comm, Nat.add_comm (256 * _)]; rfl

end Sys2Proof.Machine
end

section
/-! SUPPORT. Stack, flag and system instructions (45_stack_flags_system.md R250 to R265): an instruction writes
registers and flags, or bytes of the stack page. -/

namespace Sys2Proof.Machine

/-! ## The frame -/

section
variable {i : Instr} {s u : State} {rs : List Reg} {fs : List Flag} {base : Nat} {s1 : Bool}

/-- The end of an instruction adds only U to the flags that its operation has written (R132). -/
theorem keeps_of_complete (hexec : exec i s = .next (complete base s1 (quiet u)))
    (hreg : ∀ r, r ∉ rs → u.reg r = s.reg r) (hflag : ∀ f, f ∉ fs → f ≠ .U → u.flag f = s.flag f) :
    Keeps rs fs s (complete base s1 (quiet u)) := by
  refine keeps_of_exec hexec (fun r hr => ?_) (fun f hf hU => ?_)
  · rw [complete_reg, quiet_state, hreg r hr]
  · rw [complete_flag, if_neg hU, quiet_state, hflag f hf hU]

/-- The frame of an instruction that has written CPU registers only. -/
theorem frame_of_registers (hexec : exec i s = .next (complete base s1 (quiet u))) (hcpu : u = s.withCpu u.cpu)
    (hreg : ∀ r, r ∉ rs → u.reg r = s.reg r) (hflag : ∀ f, f ∉ fs → f ≠ .U → u.flag f = s.flag f) :
    Keeps rs fs s (complete base s1 (quiet u)) ∧ TouchesNoMemory s (complete base s1 (quiet u)) := by
  refine ⟨keeps_of_complete hexec hreg hflag, ?_⟩
  rw [complete_eq, quiet_state, hcpu, withCpu_withCpu]
  exact touchesNoMemory_withCpu s _

/-- The frame of an instruction that has written CPU registers and work RAM. -/
theorem frame_of_ram (hexec : exec i s = .next (complete base s1 (quiet u)))
    (hram : u = (s.setRam u.ram).withCpu u.cpu)
    (hreg : ∀ r, r ∉ rs → u.reg r = s.reg r) (hflag : ∀ f, f ∉ fs → f ≠ .U → u.flag f = s.flag f) :
    Keeps rs fs s (complete base s1 (quiet u)) ∧ PpuMemoryKept s (complete base s1 (quiet u)) ∧
      (complete base s1 (quiet u)).ppu = s.ppu := by
  refine ⟨keeps_of_complete hexec hreg hflag, ?_⟩
  rw [complete_eq, quiet_state, hram]
  exact ⟨ppuMemoryKept_of_eq rfl rfl rfl rfl rfl, rfl⟩

end

/-! ## Flag instructions, NOP and the placeholders -/

@[simp] theorem setFlag_reg (s : State) (f : Flag) (b : Bool) (r : Reg) : (s.setFlag f b).reg r = s.reg r := by
  cases r <;> rfl

/-- An instruction that writes one flag; U is none of those, which every instruction sets (R132). -/
theorem completes_setFlag {i : Instr} {s : State} {f : Flag} {b : Bool} (hf : f ≠ .U)
    (hexec : exec i s = .next (complete 2 false (quiet ((s.setFetched s.cpu.a).setFlag f b)))) :
    Completes i s fun t => t.flag f = b ∧ Keeps [] [f] s t ∧ TouchesNoMemory s t := by
  refine ⟨_, hexec, by simp [hf], frame_of_registers hexec rfl (fun r _ => ?regs) (fun g hg _ => ?flags)⟩
  case regs => rw [setFlag_reg]; exact addrMode_reg .imp s r
  case flags => rw [flag_setFlag, if_neg (by simpa using hg), flag_setFetched]

/-- Settles O36: each of the seven is one flag write after mode IMP. -/
theorem flagInstructionsWriteOneFlag : Obligations.FlagInstructionsWriteOneFlag := by
  intro s
  exact ⟨completes_setFlag (by decide) rfl, completes_setFlag (by decide) rfl, completes_setFlag (by decide) rfl,
    completes_setFlag (by decide) rfl, completes_setFlag (by decide) rfl, completes_setFlag (by decide) rfl,
    completes_setFlag (by decide) rfl⟩

/-- An instruction without an operation: its mode and its cycles remain, `signal` being its own half of the
page-cross signal (R128, R132). -/
theorem completes_idle {i : Instr} {o : Operand} {s : State} {base : Nat} {signal : Bool}
    (hexec : exec i s = runInstr base o (fun u => ⟨u, signal, 0⟩) s) :
    Completes i s fun t => t.cpu.countdown = base + carryValue ((addrMode o s).1 && signal) ∧ Keeps [] [] s t ∧
      CpuMemoryKept s t ∧ PpuMemoryKept s t ∧ ((∀ p, o ≠ .ind p) → t.ppu = s.ppu) :=
  ⟨_, hexec, complete_countdown _ _ _, keeps_of_exec hexec (fun r _ => by simp) (fun f _ hU => by simp [hU]),
    (cpuMemoryKept_addrMode o s).withCpu _, ppuMemoryKept_addrMode o s, addrMode_ppu o s⟩

/-- Settles O37: none of the three has an operation, and only the unofficial NOP has a signal. -/
theorem nopAndPlaceholdersChangeNothing : Obligations.NopAndPlaceholdersChangeNothing := by
  intro b o s
  refine ⟨(completes_idle (i := .nop) (o := .imp) rfl).mono fun t ⟨hcycles, hkeeps, hcpu, hmem, hppu⟩ =>
      ⟨hcycles, hkeeps, hcpu, hmem, hppu fun p => Operand.noConfusion⟩,
    (completes_idle (i := .xxx b o) rfl).mono fun t ⟨hcycles, frame⟩ => ⟨?xxx, frame⟩,
    (completes_idle (i := .unofficialNop b o) rfl).mono fun t ⟨hcycles, frame⟩ => ⟨?nop, frame⟩⟩
  case xxx => rw [hcycles, Bool.and_false]; rfl
  case nop =>
    have hsignal : ((addrMode o s).1 && signallingNopBytes.contains b) = true ↔
        (addrMode o s).1 = true ∧ b ∈ signallingNopBytes := by
      rw [Bool.and_eq_true, List.contains_iff_mem]
    exact hcycles.trans (congrArg (_ + ·) (if_congr hsignal rfl rfl))

/-! ## Push and pull -/

theorem push_reg (s : State) (v : Byte) {r : Reg} (h : r ≠ .S) : (s.push v).reg r = s.reg r := by
  rw [push_eq, byteRegister_s.reg_set _ _ r h]
  cases r <;> rfl

@[simp] theorem push_flag (s : State) (v : Byte) (f : Flag) : (s.push v).flag f = s.flag f := by
  rw [push_eq]; rfl

theorem push_withCpu_setRam (s : State) (v : Byte) : s.push v = (s.setRam (s.push v).ram).withCpu (s.push v).cpu := by
  rw [push_eq]; rfl

theorem setP_reg (s : State) (v : Byte) (r : Reg) : (s.setP v).reg r = s.reg r := by cases r <;> rfl

/-- A byte pulled: the one just above the pointer. -/
theorem pull_eq_stackByte (s : State) : s.pull = (s.stackByte 1, s.setS (s.cpu.s + 1)) := by
  rw [← pull_fst, pull_eq]

/-- PHA pushes A, which mode IMP keeps (R250). -/
theorem completes_pha (s : State) :
    Completes .pha s fun t => Pushed [s.cpu.a] s t ∧ Keeps [.S] [] s t ∧ PpuMemoryKept s t ∧ t.ppu = s.ppu := by
  have hexec : exec .pha s = .next (complete 3 false (quiet ((s.setFetched s.cpu.a).push s.cpu.a))) := rfl
  refine ⟨_, hexec, (pushed_push (s.setFetched s.cpu.a) s.cpu.a).withCpu rfl rfl,
    frame_of_ram hexec (push_withCpu_setRam _ _) (fun r hr => ?regs) (fun f _ _ => by simp)⟩
  case regs =>
    rw [push_reg _ _ (by simpa using hr)]
    exact addrMode_reg .imp s r

/-- PHP pushes the status with B and U set, then clears the live B (R251). -/
theorem completes_php (s : State) :
    Completes .php s fun t => Pushed [pushedWithBreak s.cpu.p] s t ∧ t.flag .B = false ∧ Keeps [.S] [.B] s t ∧
      PpuMemoryKept s t ∧ t.ppu = s.ppu := by
  have hexec : exec .php s = .next (complete 3 false (quiet
      (((s.setFetched s.cpu.a).push (pushedWithBreak s.cpu.p)).setFlag .B false))) := rfl
  refine ⟨_, hexec, ?pushed, by simp, frame_of_ram hexec ?ram (fun r hr => ?regs) (fun f hf _ => ?flags)⟩
  case pushed =>
    rw [complete_eq, quiet_state, setFlag_eq, withCpu_withCpu]
    exact (pushed_push (s.setFetched s.cpu.a) _).withCpu rfl rfl
  case ram => rw [push_withCpu_setRam]; rfl
  case regs =>
    rw [setFlag_reg, push_reg _ _ (by simpa using hr)]
    exact addrMode_reg .imp s r
  case flags => rw [flag_setFlag, if_neg (by simpa using hf), push_flag, flag_setFetched]

/-- PLA pulls A, with `SetZN` (R252). -/
theorem completes_pla (s : State) :
    Completes .pla s fun t => t.cpu.a = s.stackByte 1 ∧ ZnOf (s.stackByte 1) t ∧ t.cpu.s = s.cpu.s + 1 ∧
      Keeps [.A, .S] [.Z, .N] s t ∧ TouchesNoMemory s t := by
  have hexec : exec .pla s = .next (complete 4 false (quiet
      (((s.setFetched s.cpu.a).pull.2.setA (s.setFetched s.cpu.a).pull.1).setZN (s.setFetched s.cpu.a).pull.1))) := rfl
  rw [pull_eq_stackByte, stackByte_setFetched, setFetched_s] at hexec
  refine ⟨_, hexec, by simp, znOf_of_flags (by simp) (by simp), by simp,
    frame_of_registers hexec rfl (fun r hr => ?regs) (fun f hf _ => ?flags)⟩
  case regs =>
    obtain ⟨hA, hS⟩ : r ≠ .A ∧ r ≠ .S := by simpa using hr
    rw [setZN_reg, byteRegister_a.reg_set _ _ r hA, byteRegister_s.reg_set _ _ r hS]
    exact addrMode_reg .imp s r
  case flags =>
    obtain ⟨hZ, hN⟩ : f ≠ .Z ∧ f ≠ .N := by simpa using hf
    simp [hZ, hN]

/-- U is the only flag that PLP and RTI do not list: they write the whole status. -/
theorem eq_U_of_not_mem {f : Flag} (h : f ∉ [Flag.C, .Z, .I, .D, .B, .V, .N]) : f = .U := by
  cases f <;> simp at h ⊢

/-- PLP pulls the status, with U set (R253). -/
theorem completes_plp (s : State) :
    Completes .plp s fun t => (∀ f, t.flag f = if f = .U then true else flagOf f (s.stackByte 1)) ∧
      t.cpu.s = s.cpu.s + 1 ∧ Keeps [.S] [.C, .Z, .I, .D, .B, .V, .N] s t ∧ TouchesNoMemory s t := by
  have hexec : exec .plp s = .next (complete 4 false (quiet
      ((s.setFetched s.cpu.a).pull.2.setP (plpStatus (s.setFetched s.cpu.a).pull.1)))) := rfl
  rw [pull_eq_stackByte, stackByte_setFetched, setFetched_s] at hexec
  refine ⟨_, hexec, fun f => ?status, by simp,
    frame_of_registers hexec rfl (fun r hr => ?regs) (fun f hf hU => absurd (eq_U_of_not_mem hf) hU)⟩
  case status =>
    rw [complete_flag, quiet_state, flag_setP, flagOf_plpStatus]
    split <;> rfl
  case regs =>
    rw [setP_reg, byteRegister_s.reg_set _ _ r (by simpa using hr)]
    exact addrMode_reg .imp s r

/-- Settles O21: two pushes of one byte and two pulls of one. -/
theorem pushAndPullInstructions : Obligations.PushAndPullInstructions := by
  intro s
  exact ⟨completes_pha s, (completes_php s).mono fun t ⟨hpushed, rest⟩ =>
    ⟨⟨_, hpushed, flagOf_pushedWithBreak s.cpu.p⟩, rest⟩, completes_pla s, completes_plp s⟩

/-! ## BRK -/

theorem brkExtra_eq (o : BrkReturnOffset) : brkExtra o = if o = .three then 1 else 0 := by
  cases o <;> rfl

/-- The machine after the three pushes of BRK, of which I is set before the first (R262). -/
def State.brkPushed (s : State) : State :=
  ((s.setFlag .I true).push16 (s.cpu.pc + brkExtra s.cfg.brkReturnOffset)).push
    (pushedWithBreak (withFlag .I true s.cpu.p))

/-- BRK's entry: the pushes, B cleared, and `PC` from the vector as those have left it. -/
theorem brkEntry_eq_brkPushed (s : State) :
    s.brkEntry = (s.brkPushed.setFlag .B false).setPc
      (wordOf (s.brkPushed.peek irqVector) (s.brkPushed.peek (irqVector + 1))) := by
  have hpeek (a : Addr) : (s.brkPushed.setFlag .B false).peek a = s.brkPushed.peek a := peek_withCpu _ _ a
  rw [← hpeek, ← hpeek, brkEntry_eq]
  simp only [push16_cpu]
  rfl

theorem pushed_brkPushed (s : State) :
    Pushed [highByte (s.cpu.pc + brkExtra s.cfg.brkReturnOffset), lowByte (s.cpu.pc + brkExtra s.cfg.brkReturnOffset),
      pushedWithBreak (withFlag .I true s.cpu.p)] s s.brkPushed :=
  ((pushed_push16 (s.setFlag .I true) _).push (show 2 < 256 by decide) _).withCpu rfl rfl

theorem brkPushed_reg (s : State) {r : Reg} (h : r ≠ .S) : s.brkPushed.reg r = s.reg r := by
  rw [State.brkPushed, push_reg _ _ h, push16_reg _ _ h, setFlag_reg]

@[simp] theorem brkPushed_flag (s : State) (f : Flag) : s.brkPushed.flag f = if f = .I then true else s.flag f := by
  rw [State.brkPushed, push_flag, push16_flag, flag_setFlag]

theorem brkPushed_withCpu_setRam (s : State) :
    s.brkPushed = (s.setRam s.brkPushed.ram).withCpu s.brkPushed.cpu := by
  simp only [State.brkPushed, push_eq, push16_eq]; rfl

/-- The flags of the status byte that BRK pushes: B, U and I set, the rest as before (R262). -/
theorem flagOf_brkStatus (p : Byte) (f : Flag) :
    flagOf f (pushedWithBreak (withFlag .I true p)) = if f = .B ∨ f = .U ∨ f = .I then true else flagOf f p := by
  rw [flagOf_pushedWithBreak, flagOf_withFlag]
  cases f <;> rfl

/-- No push reaches program ROM. -/
theorem Pushed.peek_rom {bs : List Byte} {s t : State} (h : Pushed bs s t) {a : Addr} (ha : 0x8000 ≤ a.toNat) :
    t.peek a = s.peek a := by
  refine h.kept a (fun hport => ?_) (fun k _ hsame => ?_)
  · have := hport.2; omega
  · have := ((sameByte_stackAddr_iff _ _ _).1 hsame).1; omega

theorem wordOf_peek_toNat (s : State) (a : Addr) : (wordOf (s.peek a) (s.peek (a + 1))).toNat = s.wordAt a := by
  rw [wordOf_toNat, State.wordAt, Nat.mul_comm, Nat.add_comm]

/-- BRK, by the status byte that it pushes and the word that it jumps to (R262). -/
theorem completes_brk (s : State) :
    let r := s.cpu.pc + brkExtra s.cfg.brkReturnOffset
    Completes .brk s fun t =>
      Pushed [highByte r, lowByte r, pushedWithBreak (withFlag .I true s.cpu.p)] s t ∧
      t.flag .I = true ∧ t.flag .B = false ∧ t.cpu.pc = wordOf (s.peek irqVector) (s.peek (irqVector + 1)) ∧
      t.cpu.countdown = 7 ∧ Keeps [.S, .PC] [.I, .B] s t ∧ PpuMemoryKept s t ∧ t.ppu = s.ppu := by
  intro r
  have hpushed := pushed_brkPushed (s.setEa (s.cpu.pc - 1))
  have hexec : exec .brk s = .next (complete 7 false (quiet (s.setEa (s.cpu.pc - 1)).brkEntry)) := rfl
  have hvector {a : Addr} (ha : 0x8000 ≤ a.toNat) : (s.setEa (s.cpu.pc - 1)).brkPushed.peek a = s.peek a :=
    (hpushed.peek_rom ha).trans (peek_withCpu s _ a)
  rw [brkEntry_eq_brkPushed, hvector (by decide), hvector (by decide)] at hexec
  refine ⟨_, hexec, ?pushed, by simp, by simp, by simp, by simp,
    frame_of_ram hexec ?ram (fun q hq => ?regs) (fun f hf _ => ?flags)⟩
  case pushed =>
    rw [complete_eq, quiet_state, setPc_eq, setFlag_eq, withCpu_withCpu, withCpu_withCpu]
    exact hpushed.withCpu rfl rfl
  case ram => rw [brkPushed_withCpu_setRam]; rfl
  case regs =>
    obtain ⟨hS, hPC⟩ : q ≠ .S ∧ q ≠ .PC := by simpa using hq
    rw [setPc_reg _ _ hPC, setFlag_reg, brkPushed_reg _ hS]
    exact addrMode_reg .pad s q
  case flags =>
    obtain ⟨hI, hB⟩ : f ≠ .I ∧ f ≠ .B := by simpa using hf
    simp [hI, hB]

/-- Settles O39: the pushed status by its flags, and the vector as a number. -/
theorem brkEntersThroughTheIrqVector : Obligations.BrkEntersThroughTheIrqVector := by
  intro s
  rw [← brkExtra_eq]
  refine (completes_brk s).mono fun t ⟨hpushed, hI, hB, hpc, rest⟩ =>
    ⟨⟨_, hpushed, flagOf_brkStatus s.cpu.p⟩, hI, hB, ?_, rest⟩
  rw [hpc]
  exact wordOf_peek_toNat s irqVector

/-! ## RTI -/

/-- The stack bytes after the pull of a status. -/
theorem stackByte_status_pulled (s : State) (p : Byte) (k : Nat) :
    ((s.setS (s.cpu.s + 1)).setP p).stackByte k = s.stackByte (1 + k) := by
  have hpeek (a : Addr) : ((s.setS (s.cpu.s + 1)).setP p).peek a = s.peek a := peek_withCpu s _ a
  rw [State.stackByte, hpeek, setP_s, setS_s, add_assoc, State.stackByte, BitVec.ofNat_add]; rfl

/-- RTI's pulls: the status, then the word above it (R263). -/
theorem returnFromInterrupt_eq_stackBytes (s : State) :
    s.returnFromInterrupt = ((s.setS (s.cpu.s + 3)).setP (rtiStatus (s.stackByte 1))).setPc
      (wordOf (s.stackByte 2) (s.stackByte 3)) := by
  have hthree : s.cpu.s + 1 + 2 = s.cpu.s + 3 := add_assoc _ _ _
  simp only [State.returnFromInterrupt, pull_eq_stackByte, pull16_eq_stackBytes, stackByte_status_pulled, setP_s,
    setS_s, hthree]
  rfl

/-- RTI, by the three bytes above the pointer (R263, R411). -/
theorem completes_rti (s : State) :
    Completes .rti s fun t =>
      (∀ f, t.flag f = if f = .B then false else if f = .U then true else flagOf f (s.stackByte 1)) ∧
      t.cpu.pc = wordOf (s.stackByte 2) (s.stackByte 3) ∧ t.cpu.s = s.cpu.s + 3 ∧
      Keeps [.S, .PC] [.C, .Z, .I, .D, .B, .V, .N] s t ∧ TouchesNoMemory s t := by
  have hexec : exec .rti s = .next (complete 6 false (quiet (s.setFetched s.cpu.a).returnFromInterrupt)) := rfl
  simp only [returnFromInterrupt_eq_stackBytes, stackByte_setFetched, setFetched_s] at hexec
  refine ⟨_, hexec, fun f => ?status, by simp, by simp,
    frame_of_registers hexec rfl (fun r hr => ?regs) (fun f hf hU => absurd (eq_U_of_not_mem hf) hU)⟩
  case status =>
    rw [complete_flag, quiet_state, flag_setPc, flag_setP, flagOf_rtiStatus]
    cases f <;> rfl
  case regs =>
    obtain ⟨hS, hPC⟩ : r ≠ .S ∧ r ≠ .PC := by simpa using hr
    rw [setPc_reg _ _ hPC, setP_reg, byteRegister_s.reg_set _ _ r hS]
    exact addrMode_reg .imp s r

/-- Settles O40: the pulled word as a number. -/
theorem rtiRestoresStatusAndPc : Obligations.RtiRestoresStatusAndPc := by
  intro s
  refine (completes_rti s).mono fun t ⟨hflags, hpc, rest⟩ => ⟨hflags, ?_, rest⟩
  rw [hpc, wordOf_toNat, Nat.mul_comm, Nat.add_comm]

end Sys2Proof.Machine
end

section
/-! SUPPORT. The PPU's ports (50_ppu_ports.md R301 to R314): the outcome of an access by port, and for the two-step
writes by the latch; the loopy registers that the writes compose, as numbers. -/

namespace Sys2Proof.Machine

/-! ## One field of a loopy register replaced (R43) -/

theorem withCoarseX_toNat (r : Loopy) (x : BitVec 5) :
    (withCoarseX r x).toNat = r.toNat / 32 * 32 + x.toNat := by
  rw [withCoarseX, loopy_toNat, fineY_toNat, nametableY_toNat, nametableX_toNat, coarseY_toNat]
  omega

theorem withCoarseY_toNat (r : Loopy) (y : BitVec 5) :
    (withCoarseY r y).toNat = r.toNat / 1024 * 1024 + y.toNat * 32 + r.toNat % 32 := by
  rw [withCoarseY, loopy_toNat, fineY_toNat, nametableY_toNat, nametableX_toNat, coarseX_toNat]
  omega

theorem withNametableX_toNat (r : Loopy) (n : BitVec 1) :
    (withNametableX r n).toNat = r.toNat / 2048 * 2048 + n.toNat * 1024 + r.toNat % 1024 := by
  rw [withNametableX, loopy_toNat, fineY_toNat, nametableY_toNat, coarseY_toNat, coarseX_toNat]
  omega

theorem withNametableY_toNat (r : Loopy) (n : BitVec 1) :
    (withNametableY r n).toNat = r.toNat / 4096 * 4096 + n.toNat * 2048 + r.toNat % 2048 := by
  rw [withNametableY, loopy_toNat, fineY_toNat, nametableX_toNat, coarseY_toNat, coarseX_toNat]
  omega

theorem withFineY_toNat (r : Loopy) (y : BitVec 3) :
    (withFineY r y).toNat = y.toNat * 4096 + r.toNat % 4096 := by
  rw [withFineY, loopy_toNat, nametableY_toNat, nametableX_toNat, coarseY_toNat, coarseX_toNat]
  omega

@[simp] theorem coarseX_withCoarseY (r : Loopy) (y : BitVec 5) : coarseX (withCoarseY r y) = coarseX r :=
  coarseX_loopy _ _ _ _ _
@[simp] theorem coarseX_withFineY (r : Loopy) (y : BitVec 3) : coarseX (withFineY r y) = coarseX r :=
  coarseX_loopy _ _ _ _ _

/-! ## What the port writes put in `t` -/

/-- The `n` bits of a word from bit `i` on. -/
theorem bits_toNat {k : Nat} (x : BitVec k) (i n : Nat) : (x.extractLsb' i n).toNat = x.toNat / 2 ^ i % 2 ^ n := by
  rw [BitVec.extractLsb'_toNat, Nat.shiftRight_eq_div_pow]

/-- The nametable bits of a control write (R302, D24). -/
theorem controlNametable_toNat (t : Loopy) (d : Byte) :
    (withNametableY (withNametableX t (d.extractLsb' 0 1)) (d.extractLsb' 1 1)).toNat =
      t.toNat / 4096 * 4096 + d.toNat % 4 * 1024 + t.toNat % 1024 := by
  rw [withNametableY_toNat, withNametableX_toNat, bits_toNat, bits_toNat]
  omega

/-- The vertical parts of a second scroll write (R308, D26). -/
theorem scrollVertical_toNat (t : Loopy) (d : Byte) :
    (withCoarseY (withFineY t (d.extractLsb' 0 3)) (d.extractLsb' 3 5)).toNat =
      d.toNat % 8 * 4096 + t.toNat / 1024 % 4 * 1024 + d.toNat / 8 * 32 + t.toNat % 32 := by
  have := d.isLt
  rw [withCoarseY_toNat, withFineY_toNat, bits_toNat, bits_toNat]
  omega

/-- The horizontal part of a first scroll write (R308, D26). -/
theorem scrollHorizontal_toNat (t : Loopy) (d : Byte) :
    (withCoarseX t (d.extractLsb' 3 5)).toNat = t.toNat / 32 * 32 + d.toNat / 8 := by
  have := d.isLt
  rw [withCoarseX_toNat, bits_toNat]
  omega

/-- A first address write composes bits 13:8 and clears bit 14 (R309, D27). -/
theorem addressHigh_toNat (t : Loopy) (d : Byte) :
    (0#1 ++ d.extractLsb' 0 6 ++ t.extractLsb' 0 8).toNat = d.toNat % 64 * 256 + t.toNat % 256 := by
  rw [toNat_append_sum, toNat_append_sum, bits_toNat, bits_toNat, BitVec.toNat_ofNat]
  omega

/-- A second address write replaces bits 7:0 (R309). -/
theorem addressLow_toNat (t : Loopy) (d : Byte) :
    (t.extractLsb' 8 7 ++ d).toNat = t.toNat / 256 * 256 + d.toNat := by
  have := t.isLt
  rw [toNat_append_sum, bits_toNat]
  omega

/-- A first address write keeps the coarse X of `t` (R309, R43). -/
theorem coarseX_addressHigh (t : Loopy) (d : Byte) :
    coarseX (0#1 ++ d.extractLsb' 0 6 ++ t.extractLsb' 0 8) = coarseX t := by
  apply BitVec.eq_of_toNat_eq
  rw [coarseX_toNat, coarseX_toNat, addressHigh_toNat]
  omega

/-! ## The ports without a function (R306, R307, R310) -/

theorem ppuPortRead_of_no_function {port : BitVec 3} (hlo : 3 ≤ port.toNat) (hhi : port.toNat ≤ 6) (s : State) :
    s.ppuPortRead port = (0x00, s) := by
  have hport : port = 3 ∨ port = 4 ∨ port = 5 ∨ port = 6 := by bv_omega
  rcases hport with rfl | rfl | rfl | rfl <;> rfl

theorem ppuPortWrite_of_no_function {port : BitVec 3} (hlo : 2 ≤ port.toNat) (hhi : port.toNat ≤ 4) (s : State)
    (d : Byte) : s.ppuPortWrite port d = s := by
  have hport : port = 2 ∨ port = 3 ∨ port = 4 := by bv_omega
  rcases hport with rfl | rfl | rfl <;> rfl

/-! ## Control write, status read -/

theorem ppuPortWrite_control_t (s : State) (d : Byte) :
    (s.ppuPortWrite 0 d).ppu.t =
      if s.cfg.ctrlWriteCopiesNt then
        withNametableY (withNametableX s.ppu.t (d.extractLsb' 0 1)) (d.extractLsb' 1 1)
      else s.ppu.t := rfl

/-- One flag of the status byte, at its weight. -/
theorem ofBool_toNat_mul (b : Bool) (k : Nat) : (BitVec.ofBool b).toNat * k = if b then k else 0 := by
  cases b <;> simp

theorem statusByte_toNat (p : Ppu) :
    p.statusByte.toNat = (if p.verticalBlank then 128 else 0) + (if p.spriteZeroHit then 64 else 0) +
      (if p.spriteOverflow then 32 else 0) + p.dataBuf.toNat % 32 := by
  simp only [Ppu.statusByte, toNat_append_sum, bits_toNat, ← ofBool_toNat_mul]
  omega

/-! ## The two-step writes, by the latch (R308, R309, R311) -/

section
variable {s : State}

theorem ppuPortWrite_scroll_first (h : s.ppu.w = false) (d : Byte) :
    s.ppuPortWrite 5 d = s.setPpu { s.ppu with
      fineX := d.extractLsb' 0 3, t := withCoarseX s.ppu.t (d.extractLsb' 3 5), w := true } :=
  congrArg s.setPpu (if_neg (Bool.eq_false_iff.1 h))

theorem ppuPortWrite_scroll_second (h : s.ppu.w = true) (d : Byte) :
    s.ppuPortWrite 5 d = s.setPpu { s.ppu with
      t := withCoarseY (withFineY s.ppu.t (d.extractLsb' 0 3)) (d.extractLsb' 3 5), w := false } :=
  congrArg s.setPpu (if_pos h)

theorem ppuPortWrite_address_first (h : s.ppu.w = false) (d : Byte) :
    s.ppuPortWrite 6 d = s.setPpu { s.ppu with
      t := 0#1 ++ d.extractLsb' 0 6 ++ s.ppu.t.extractLsb' 0 8, w := true } :=
  congrArg s.setPpu (if_neg (Bool.eq_false_iff.1 h))

theorem ppuPortWrite_address_second (h : s.ppu.w = true) (d : Byte) :
    s.ppuPortWrite 6 d = s.setPpu { s.ppu with
      t := s.ppu.t.extractLsb' 8 7 ++ d, v := s.ppu.t.extractLsb' 8 7 ++ d, w := false } :=
  congrArg s.setPpu (if_pos h)

end

/-! ## The data port (R313, R314) -/

/-- A data write stores in a PPU memory and moves `v`. -/
theorem ppuPortWrite_data (s : State) (d : Byte) :
    s.ppuPortWrite 7 d = { s with
      chr := (s.ppuWrite s.ppu.vAddr d).chr
      ppu := { s.ppu with
        v := s.ppu.nextV
        nt := (s.ppuWrite s.ppu.vAddr d).ppu.nt
        pal := (s.ppuWrite s.ppu.vAddr d).ppu.pal } } :=
  congrArg (fun t : State => t.setPpu { t.ppu with v := s.ppu.nextV }) (ppuWrite_frame s s.ppu.vAddr d)

/-- The moved `v` plays no part in a later PPU read. -/
theorem ppuRead_ppuPortWrite_data (s : State) (d : Byte) (a : Addr) :
    (s.ppuPortWrite 7 d).ppuRead a = (s.ppuWrite s.ppu.vAddr d).ppuRead a :=
  ppuRead_setPpu _ _ a rfl rfl

/-! ## The latch (R311) -/

theorem ppuPortRead_w {port : BitVec 3} (h : port ≠ 2) (s : State) : (s.ppuPortRead port).2.ppu.w = s.ppu.w := by
  rcases ppuPortRead_cases s port with ⟨_, _, e⟩ | ⟨h2, _⟩ | ⟨_, e⟩
  · rw [e]
  · exact absurd h2 h
  · rw [e]; rfl

theorem ppuPortWrite_w {port : BitVec 3} (h5 : port ≠ 5) (h6 : port ≠ 6) (s : State) (d : Byte) :
    (s.ppuPortWrite port d).ppu.w = s.ppu.w := by
  have hport : port = 0 ∨ port = 1 ∨ (2 ≤ port.toNat ∧ port.toNat ≤ 4) ∨ port = 7 := by bv_omega
  rcases hport with rfl | rfl | ⟨hlo, hhi⟩ | rfl
  · rfl
  · rfl
  · rw [ppuPortWrite_of_no_function hlo hhi]
  · rw [ppuPortWrite_data]

/-- A reset reads its vector in program ROM, so no port is accessed (R430). -/
theorem cpuReset_ppu (s : State) : s.cpuReset.ppu = s.ppu := by
  simp only [State.cpuReset, memRead16_rom s resetVector (by decide) (by decide)]

/-! ## The obligations -/

/-- Settles O15: every port by its own equation, and the nametable bits of a control write as a number. -/
theorem plainPortsReadAndWriteThrough : Obligations.PlainPortsReadAndWriteThrough := by
  intro s port d
  refine ⟨rfl, rfl, fun hkeep => ?_, fun hcopy => ?_, rfl, rfl,
    fun hlo hhi => ppuPortRead_of_no_function hlo hhi s, fun hlo hhi => ppuPortWrite_of_no_function hlo hhi s d⟩
  · rw [ppuPortWrite_control_t, hkeep, if_neg Bool.false_ne_true]
  · rw [ppuPortWrite_control_t, if_pos hcopy, controlNametable_toNat]

/-- Settles O16: the status byte as a sum of its flags and the residue. -/
theorem statusReadReturnsFlagsAndClears : Obligations.StatusReadReturnsFlagsAndClears :=
  fun s => ⟨statusByte_toNat s.ppu, rfl⟩

/-- Settles O17: the latch says which step a write is, and each step replaces its own bits of `t`. -/
theorem twoStepWritesSetScrollAndAddress : Obligations.TwoStepWritesSetScrollAndAddress := by
  intro s d1 d2
  refine ⟨fun h => ?first, fun h => ?second⟩
  case first =>
    simp only [ppuPortWrite_scroll_first h, ppuPortWrite_address_first h]
    rw [ppuPortWrite_scroll_second rfl, ppuPortWrite_address_second rfl]
    refine ⟨⟨rfl, scrollHorizontal_toNat s.ppu.t d1, ?fineX⟩, ⟨rfl, ?scroll⟩,
      ⟨rfl, addressHigh_toNat s.ppu.t d1⟩, ⟨rfl, ?address⟩⟩
    case fineX =>
      simp only [setPpu_ppu, bits_toNat]
      omega
    case scroll =>
      have := d1.isLt
      simp only [setPpu_ppu, scrollVertical_toNat, scrollHorizontal_toNat]
      omega
    case address =>
      simp only [setPpu_ppu, addressLow_toNat, addressHigh_toNat]
      omega
  case second =>
    rw [ppuPortWrite_scroll_second h, ppuPortWrite_address_second h]
    exact ⟨⟨rfl, scrollVertical_toNat s.ppu.t d2⟩, ⟨rfl, addressLow_toNat s.ppu.t d2⟩⟩

/-- Settles O18: a first write leaves the latch at 1 for the write after it, whichever of the two ports that is. -/
theorem scrollAndAddressShareTheLatch : Obligations.ScrollAndAddressShareTheLatch := by
  intro s port d1 d2
  refine ⟨fun h => ?scrollThenAddress, fun h => ?addressThenScroll, rfl, fun h2 => ppuPortRead_w h2 s,
    fun h5 h6 => ppuPortWrite_w h5 h6 s d1, congrArg Ppu.w (cpuReset_ppu s)⟩
  case scrollThenAddress =>
    rw [ppuPortWrite_scroll_first h, ppuPortWrite_address_second rfl]
    exact ⟨rfl, rfl⟩
  case addressThenScroll =>
    rw [ppuPortWrite_address_first h, ppuPortWrite_scroll_second rfl]
    refine ⟨rfl, rfl, ?_⟩
    simp only [setPpu_ppu, coarseX_withCoarseY, coarseX_withFineY, coarseX_addressHigh]

/-- Settles O19: a data write is a PPU write at `v` (O14) with `v` moved. -/
theorem theDataPortReadsBufferedAndIncrements : Obligations.TheDataPortReadsBufferedAndIncrements := by
  intro s d
  refine ⟨?byte, rfl, nextV_toNat s.ppu, nextV_toNat s.ppu, ?buffer,
    fun a hs ha => ?same, fun a ha => ?other, ppuPortWrite_cpu s 7 d, ppuPortWrite_ram s 7 d, ppuPortWrite_prg s 7 d⟩
  case byte =>
    rw [← vAddr_toNat]
    rfl
  case buffer => rw [ppuPortWrite_data]
  case same => rw [ppuRead_ppuPortWrite_data, ppuRead_ppuWrite_same hs ha]
  case other => rw [ppuRead_ppuPortWrite_data, ppuRead_ppuWrite_other ha]

end Sys2Proof.Machine
end

section
/-! SUPPORT. A dot as two updates of PPU fields: the region's actions (R330 to R345), and after them vertical blank,
the compositor and the counters (R346 to R350). -/

namespace Sys2Proof.Machine

/-! ## The region's actions -/

/-- A dot of a fetch window (R331, R332). -/
def Ppu.fetches (p : Ppu) : Bool := p.inRegion && p.inFetchWindow

/-- A dot of a fetch window with key `k` (R334). -/
def Ppu.fetchesAt (p : Ppu) (k : Nat) : Bool := p.fetches && decide ((p.dot - 1) % 8 = k)

/-- A shift register after the shift that starts a fetch-window dot in the non-default variant (R348). -/
def State.earlyShifted (s : State) (r : BitVec 16) : BitVec 16 :=
  if s.cfg.ppuShiftEveryDot = false ∧ s.ppu.renderBackground = true then r <<< 1 else r

/-- A shift register after the region's actions: the early shift, then at key 0 the load of `b` (R335, R348). -/
def State.loaded (s : State) (r : BitVec 16) (b : Byte) : BitVec 16 :=
  if s.ppu.fetchesAt 0 then loadLow (s.earlyShifted r) b
  else if s.ppu.fetches then s.earlyShifted r
  else r

theorem earlyShift_fields (s : State) :
    s.earlyShift = s.setPpu { s.ppu with
      bgShifterPatternLo := s.earlyShifted s.ppu.bgShifterPatternLo
      bgShifterPatternHi := s.earlyShifted s.ppu.bgShifterPatternHi
      bgShifterAttribLo := s.earlyShifted s.ppu.bgShifterAttribLo
      bgShifterAttribHi := s.earlyShifted s.ppu.bgShifterAttribHi } := by
  rw [earlyShift_eq]
  by_cases h : s.cfg.ppuShiftEveryDot = false ∧ s.ppu.renderBackground = true
  · simp only [if_pos h, State.earlyShifted]; rfl
  · simp only [if_neg h, State.earlyShifted]; rfl

/-- In the region, what follows the fetch windows changes `v` only (R342 to R344). -/
theorem regionStep_of_inRegion {s : State} (h : s.ppu.inRegion = true) :
    ∃ v, s.regionStep.ppu = { s.clearVblankStep.fetchStep.ppu with v := v } := by
  unfold State.regionStep
  rw [if_pos h]
  generalize s.clearVblankStep.fetchStep = u
  rw [transferYStep_eq, transferXStep_eq, incrementYStep_eq]
  exact ⟨_, rfl⟩

/-- The region's actions, but for `v` (R330, R333 to R340, R348). -/
theorem regionStep_ppu (s : State) :
    s.regionStep.ppu = { s.ppu with
      verticalBlank :=
        if s.ppu.scanline = -1 ∧ s.ppu.dot = 1 ∧ s.cfg.ppuClearVblankAtPrerender = true then false
        else s.ppu.verticalBlank
      v := s.regionStep.ppu.v
      bgNextTileId := if s.ppu.fetchesAt 0 then s.ppuRead (tileAddr s.ppu.v) else s.ppu.bgNextTileId
      bgNextTileAttrib := if s.ppu.fetchesAt 2
        then attributeBits s.ppu.v (s.ppuRead (attributeAddr s.ppu.v)) else s.ppu.bgNextTileAttrib
      bgNextTileLsb := if s.ppu.fetchesAt 4 then s.ppuRead (s.ppu.patternAddr 0) else s.ppu.bgNextTileLsb
      bgNextTileMsb := if s.ppu.fetchesAt 6 then s.ppuRead (s.ppu.patternAddr 8) else s.ppu.bgNextTileMsb
      bgShifterPatternLo := s.loaded s.ppu.bgShifterPatternLo s.ppu.bgNextTileLsb
      bgShifterPatternHi := s.loaded s.ppu.bgShifterPatternHi s.ppu.bgNextTileMsb
      bgShifterAttribLo := s.loaded s.ppu.bgShifterAttribLo (eightOf (s.ppu.bgNextTileAttrib.getLsbD 0))
      bgShifterAttribHi := s.loaded s.ppu.bgShifterAttribHi (eightOf (s.ppu.bgNextTileAttrib.getLsbD 1)) } := by
  by_cases hr : s.ppu.inRegion = true
  · obtain ⟨v, hv⟩ := regionStep_of_inRegion hr
    have hwindow : s.clearVblankStep.ppu.inFetchWindow = s.ppu.inFetchWindow := by rw [clearVblankStep_eq]; rfl
    rw [hv]
    unfold State.fetchStep
    rw [hwindow]
    by_cases hf : s.ppu.inFetchWindow = true
    · have hfetches : s.ppu.fetches = true := by simp [Ppu.fetches, hr, hf]
      rw [if_pos hf, fetchAction_eq, earlyShift_fields, clearVblankStep_eq]
      simp only [State.loaded, Ppu.fetchesAt, hfetches, Bool.true_and, decide_eq_true_eq, if_true]
      rfl
    · have hfetches : s.ppu.fetches = false := by simp [Ppu.fetches, hf]
      rw [if_neg hf, clearVblankStep_eq]
      simp [State.loaded, Ppu.fetchesAt, hfetches]
  · have hn : s.ppu.scanline ≠ -1 := fun h => hr (by simp [Ppu.inRegion, h])
    simp [State.regionStep, hr, hn, State.loaded, Ppu.fetchesAt, Ppu.fetches]

/-! ## Vertical blank, compositor, counters -/

/-- A shift register at the end of a dot: shifted by the compositor in the default variant (R348). -/
def State.lateShifted (s : State) (r : BitVec 16) : BitVec 16 :=
  if s.cfg.ppuShiftEveryDot = true ∧ s.ppu.renderBackground = true then r <<< 1 else r

theorem compositeStep_fields (s : State) :
    s.compositeStep = s.setPpu { s.ppu with
      fb := s.fbAfter
      bgShifterPatternLo := s.lateShifted s.ppu.bgShifterPatternLo
      bgShifterPatternHi := s.lateShifted s.ppu.bgShifterPatternHi
      bgShifterAttribLo := s.lateShifted s.ppu.bgShifterAttribLo
      bgShifterAttribHi := s.lateShifted s.ppu.bgShifterAttribHi } := by
  rw [compositeStep_eq]
  by_cases h : s.cfg.ppuShiftEveryDot = true ∧ s.ppu.renderBackground = true
  · simp only [if_pos h, State.lateShifted]; rfl
  · simp only [if_neg h, State.lateShifted]

@[simp] theorem regionStep_cfg (s : State) : s.regionStep.cfg = s.cfg := by rw [(dot_regionStep s).1]; rfl
@[simp] theorem regionStep_ctrl (s : State) : s.regionStep.ppu.ctrl = s.ppu.ctrl := by rw [regionStep_ppu]
@[simp] theorem regionStep_mask (s : State) : s.regionStep.ppu.mask = s.ppu.mask := by rw [regionStep_ppu]
@[simp] theorem regionStep_fineX (s : State) : s.regionStep.ppu.fineX = s.ppu.fineX := by rw [regionStep_ppu]
@[simp] theorem regionStep_scanline (s : State) : s.regionStep.ppu.scanline = s.ppu.scanline := by
  rw [regionStep_ppu]
@[simp] theorem regionStep_dot (s : State) : s.regionStep.ppu.dot = s.ppu.dot := by rw [regionStep_ppu]
@[simp] theorem regionStep_nmiPending (s : State) : s.regionStep.ppu.nmiPending = s.ppu.nmiPending := by
  rw [regionStep_ppu]

/-- What a dot does after the region's actions, but for the counters (R346 to R349). -/
theorem ppuClock_ppu (s : State) :
    s.ppuClock.ppu = { s.regionStep.ppu with
      verticalBlank := s.regionStep.vblankStep.ppu.verticalBlank
      nmiPending := s.regionStep.vblankStep.ppu.nmiPending
      bgShifterPatternLo := s.regionStep.lateShifted s.regionStep.ppu.bgShifterPatternLo
      bgShifterPatternHi := s.regionStep.lateShifted s.regionStep.ppu.bgShifterPatternHi
      bgShifterAttribLo := s.regionStep.lateShifted s.regionStep.ppu.bgShifterAttribLo
      bgShifterAttribHi := s.regionStep.lateShifted s.regionStep.ppu.bgShifterAttribHi
      fb := s.regionStep.vblankStep.fbAfter
      scanline := s.ppuClock.ppu.scanline
      dot := s.ppuClock.ppu.dot
      frameComplete := s.ppuClock.ppu.frameComplete } := by
  have hclock : s.ppuClock.ppu = s.regionStep.vblankStep.compositeStep.ppu.advanceCounters := rfl
  rw [hclock, advanceCounters_frame, compositeStep_fields]
  generalize s.regionStep.vblankStep.fbAfter = fb
  rw [vblankStep_eq]
  rfl

end Sys2Proof.Machine
end

section
/-! The frame (51_ppu_rendering.md R350): how far the counters are after any number of steps. -/

namespace Sys2Proof.Machine

/-- The counters, and the flag that their wrap sets. -/
def Ppu.SameCounters (p q : Ppu) : Prop :=
  q.scanline = p.scanline ∧ q.dot = p.dot ∧ q.frameComplete = p.frameComplete

theorem Ppu.SameEngine.counters {p q : Ppu} (h : Ppu.SameEngine p q) : Ppu.SameCounters p q := by
  rw [h]; exact ⟨rfl, rfl, rfl⟩

theorem Ppu.DotFrame.counters {p q : Ppu} (h : Ppu.DotFrame p q) : Ppu.SameCounters p q := by
  rw [h]; exact ⟨rfl, rfl, rfl⟩

theorem Ppu.SameCounters.trans {p q r : Ppu} (h : Ppu.SameCounters p q) (h' : Ppu.SameCounters q r) :
    Ppu.SameCounters p r :=
  ⟨h'.1.trans h.1, h'.2.1.trans h.2.1, h'.2.2.trans h.2.2⟩

/-- The new counters depend on the old ones only (R350). -/
theorem Ppu.SameCounters.advanceCounters {p q : Ppu} (h : Ppu.SameCounters p q) :
    Ppu.SameCounters p.advanceCounters q.advanceCounters := by
  obtain ⟨hs, hd, hf⟩ := h
  unfold Ppu.advanceCounters
  rw [hs, hd]
  split
  · split
    · exact ⟨rfl, rfl, rfl⟩
    · exact ⟨rfl, rfl, hf⟩
  · exact ⟨rfl, rfl, hf⟩

/-- What a dot does to the counters. -/
theorem ppuClock_counters (s : State) : Ppu.SameCounters s.ppu.advanceCounters s.ppuClock.ppu :=
  (dot_before_counters s).2.counters.advanceCounters

/-- NMI delivery and the tick counter are outside the counters (R376). -/
theorem endTick_counters (s : State) : Ppu.SameCounters s.ppu s.endTick.ppu := by
  unfold State.endTick State.deliverNmi
  split
  · exact ((Effects.refl (s.setPpu { s.ppu with nmiPending := false })).nonMaskableInterrupt).engine.counters
  · exact ⟨rfl, rfl, rfl⟩

/-- In every step the counters advance once, whatever the CPU does. -/
theorem step_counters (s : State) :
    ∃ t, step s = .next t ∧ Ppu.SameCounters s.ppu.advanceCounters t.ppu := by
  obtain ⟨u, hu, e⟩ := cpuPart_effects s.ppuClock
  refine ⟨u.endTick, by rw [step, busClock, hu]; rfl, ?_⟩
  exact (ppuClock_counters s).trans (e.engine.counters.trans (endTick_counters u))

/-! ## Dots counted -/

/-- `q` is `n` dots after `p`: the position has advanced by `n` in the frame, and the flag is set if that passed
the frame's end. -/
structure Ppu.DotsLater (n : Nat) (p q : Ppu) : Prop where
  inFrame : q.inFrame
  position : q.position = (p.position + n) % 89342
  frameComplete : q.frameComplete = (p.frameComplete || decide (89342 ≤ p.position + n))

theorem Ppu.inFrame.position_lt {p : Ppu} (h : p.inFrame) : p.position < 89342 := by
  obtain ⟨hlo, hhi, hdot⟩ := h
  unfold Ppu.position
  omega

theorem Ppu.DotsLater.refl {p : Ppu} (h : p.inFrame) : Ppu.DotsLater 0 p p where
  inFrame := h
  position := by rw [Nat.add_zero, Nat.mod_eq_of_lt h.position_lt]
  frameComplete := by rw [Nat.add_zero, decide_eq_false (Nat.not_le.2 h.position_lt), Bool.or_false]

/-- One dot, then `n` dots: the frame's end lies in the first part or in the second, so the flags add up. -/
theorem Ppu.DotsLater.trans_one {n : Nat} {p q r : Ppu} (hp : p.inFrame) (h : Ppu.DotsLater 1 p q)
    (h' : Ppu.DotsLater n q r) : Ppu.DotsLater (n + 1) p r where
  inFrame := h'.inFrame
  position := by
    rw [h'.position, h.position]
    omega
  frameComplete := by
    have := hp.position_lt
    rw [h'.frameComplete, h.frameComplete, h.position, Bool.or_assoc, ← Bool.decide_or]
    congr 2
    apply propext
    omega

/-- The counters advance by one dot: along the line, to the next line, or to the next frame (R350). -/
theorem advanceCounters_dotsLater {p : Ppu} (h : p.inFrame) : Ppu.DotsLater 1 p p.advanceCounters := by
  obtain ⟨hlo, hhi, hdot⟩ := h
  have hrange := advanceCounters_scanline_range ⟨hlo, hhi⟩
  refine ⟨⟨hrange.1, hrange.2, advanceCounters_dot_le p⟩, ?position, ?flag⟩
  case position =>
    unfold Ppu.advanceCounters Ppu.position
    split
    · split <;> simp only <;> omega
    · simp only
      omega
  case flag =>
    unfold Ppu.advanceCounters Ppu.position
    split
    next hline =>
      split
      next hframe =>
        rw [decide_eq_true (by omega), Bool.or_true]
      next hframe =>
        rw [decide_eq_false (by omega), Bool.or_false]
    next hline =>
      rw [decide_eq_false (by omega), Bool.or_false]

theorem Ppu.SameCounters.dotsLater {n : Nat} {p q r : Ppu} (h : Ppu.SameCounters q r) (hq : Ppu.DotsLater n p q) :
    Ppu.DotsLater n p r := by
  obtain ⟨hs, hd, hf⟩ := h
  obtain ⟨hframe, hposition, hflag⟩ := hq
  unfold Ppu.inFrame at hframe
  unfold Ppu.position at hposition
  rw [← hs, ← hd] at hframe hposition
  exact ⟨hframe, hposition, hf.trans hflag⟩

/-- The frame over any number of steps. -/
theorem runSteps_dotsLater (n : Nat) (s : State) (h : s.ppu.inFrame) :
    ∃ t, runSteps n s = .next t ∧ Ppu.DotsLater n s.ppu t.ppu := by
  induction n generalizing s with
  | zero => exact ⟨s, rfl, .refl h⟩
  | succ n ih =>
    obtain ⟨u, hu, hcounters⟩ := step_counters s
    have hone : Ppu.DotsLater 1 s.ppu u.ppu := hcounters.dotsLater (advanceCounters_dotsLater h)
    obtain ⟨t, ht, hlater⟩ := ih u hone.inFrame
    exact ⟨t, by rw [runSteps, hu]; exact ht, .trans_one h hone hlater⟩

/-- Settles O45, by induction on the number of steps: each one advances the counters by one dot. -/
theorem aFrameIs89342Steps : Obligations.AFrameIs89342Steps := by
  intro s n h
  obtain ⟨t, ht, hframe, hposition, hflag⟩ := runSteps_dotsLater n s h
  exact ⟨t, ht, hframe, hposition, hflag⟩

end Sys2Proof.Machine
end

section
/-! The scroll operations (51_ppu_rendering.md R341 to R345): what each makes of the fields of `v`, and at which dots
each runs (R330, R334). -/

namespace Sys2Proof.Machine

/-! ## The fields of `v` -/

/-- A loopy register is its five fields. -/
theorem loopy_fields (r : Loopy) : loopy (fineY r) (nametableY r) (nametableX r) (coarseY r) (coarseX r) = r := by
  apply BitVec.eq_of_toNat_eq
  rw [loopy_toNat, fineY_toNat, nametableY_toNat, nametableX_toNat, coarseY_toNat, coarseX_toNat]
  omega

theorem loopy_and (fy fy' : BitVec 3) (ny nx ny' nx' : BitVec 1) (cy cx cy' cx' : BitVec 5) :
    loopy fy ny nx cy cx &&& loopy fy' ny' nx' cy' cx' =
      loopy (fy &&& fy') (ny &&& ny') (nx &&& nx') (cy &&& cy') (cx &&& cx') := by
  show fy ++ ny ++ nx ++ cy ++ cx &&& (fy' ++ ny' ++ nx' ++ cy' ++ cx') = _
  rw [BitVec.and_append, BitVec.and_append, BitVec.and_append, BitVec.and_append]; rfl

theorem loopy_or (fy fy' : BitVec 3) (ny nx ny' nx' : BitVec 1) (cy cx cy' cx' : BitVec 5) :
    loopy fy ny nx cy cx ||| loopy fy' ny' nx' cy' cx' =
      loopy (fy ||| fy') (ny ||| ny') (nx ||| nx') (cy ||| cy') (cx ||| cx') := by
  show fy ++ ny ++ nx ++ cy ++ cx ||| (fy' ++ ny' ++ nx' ++ cy' ++ cx') = _
  rw [BitVec.or_append, BitVec.or_append, BitVec.or_append, BitVec.or_append]; rfl

/-- The mask of the vertical fields (R344). -/
theorem and_vertical (r : Loopy) : r &&& 0x7BE0#15 = loopy (fineY r) (nametableY r) 0#1 (coarseY r) 0#5 := by
  have hmask : 0x7BE0#15 = loopy (BitVec.allOnes 3) (BitVec.allOnes 1) 0#1 (BitVec.allOnes 5) 0#5 := rfl
  conv_lhs => rw [← loopy_fields r, hmask, loopy_and]
  simp only [BitVec.and_allOnes, BitVec.and_zero]

/-- The mask of the horizontal fields (R343). -/
theorem and_horizontal (r : Loopy) : r &&& 0x041F#15 = loopy 0#3 0#1 (nametableX r) 0#5 (coarseX r) := by
  have hmask : 0x041F#15 = loopy 0#3 0#1 (BitVec.allOnes 1) 0#5 (BitVec.allOnes 5) := rfl
  conv_lhs => rw [← loopy_fields r, hmask, loopy_and]
  simp only [BitVec.and_allOnes, BitVec.and_zero]

theorem transferredX_eq (v t : Loopy) : transferredX v t = (v &&& 0x7BE0#15) ||| (t &&& 0x041F#15) := by
  rw [and_vertical, and_horizontal, loopy_or]
  simp [transferredX, withNametableX, withCoarseX]

theorem transferredY_eq (v t : Loopy) : transferredY v t = (v &&& 0x041F#15) ||| (t &&& 0x7BE0#15) := by
  rw [and_vertical, and_horizontal, loopy_or]
  simp [transferredY, withNametableY, withCoarseY, withFineY]

/-! ## Scroll operations while rendering, and not (R345) -/

theorem scrollIf_of_rendering {p : Ppu} (h : p.rendering = true) (v : Loopy) : p.scrollIf v = { p with v := v } :=
  if_pos h

theorem scrollIf_of_not_rendering {p : Ppu} (h : p.rendering = false) (v : Loopy) : p.scrollIf v = p := by
  rw [Ppu.scrollIf, h]; rfl

theorem scrollIf_frame (p : Ppu) (v : Loopy) : p.scrollIf v = { p with v := (p.scrollIf v).v } := by
  rw [scrollIf_eq]

/-- Settles O48: the two masks split a register into its horizontal and its vertical fields. -/
theorem transfersCopyTheScrollFields : Obligations.TransfersCopyTheScrollFields := by
  intro p
  refine ⟨scrollIf_frame p _, scrollIf_frame p _, fun h => ?off, fun h => ?x, fun h => ?y⟩
  case off => exact ⟨scrollIf_of_not_rendering h _, scrollIf_of_not_rendering h _⟩
  case x => rw [← transferredX_eq, Ppu.transferAddressX, scrollIf_of_rendering h]
  case y => rw [← transferredY_eq, Ppu.transferAddressY, scrollIf_of_rendering h]

/-! ## The increments -/

theorem not_eq_one_sub (n : BitVec 1) : ~~~n = 1 - n := by revert n; decide

theorem scrollXIncremented_of_wrap {v : Loopy} (h : coarseX v = 31) :
    scrollXIncremented v = loopy (fineY v) (nametableY v) (1 - nametableX v) (coarseY v) 0 := by
  rw [scrollXIncremented, if_pos h, not_eq_one_sub]
  simp [withNametableX, withCoarseX]

theorem scrollXIncremented_of_ne {v : Loopy} (h : coarseX v ≠ 31) :
    scrollXIncremented v = withCoarseX v (coarseX v + 1) := if_neg h

theorem scrollYIncremented_of_lt {v : Loopy} (h : (fineY v).toNat < 7) :
    scrollYIncremented v = withFineY v (fineY v + 1) := by
  refine if_pos fun h7 => ?_
  rw [h7] at h
  exact absurd h (by decide)

theorem scrollYIncremented_of_seven {v : Loopy} (h : (fineY v).toNat = 7) :
    scrollYIncremented v =
      if coarseY v = 29 then loopy 0 (1 - nametableY v) (nametableX v) 0 (coarseX v)
      else loopy 0 (nametableY v) (nametableX v) (if coarseY v = 31 then 0 else coarseY v + 1) (coarseX v) := by
  have h7 : fineY v = 7 := BitVec.eq_of_toNat_eq h
  rw [scrollYIncremented, if_neg (not_not.2 h7), not_eq_one_sub]
  dsimp only
  split
  · simp [withNametableY, withCoarseY, withFineY]
  · split <;> simp [withCoarseY, withFineY]

theorem scrollXIncremented_keeps (v : Loopy) :
    coarseY (scrollXIncremented v) = coarseY v ∧ nametableY (scrollXIncremented v) = nametableY v ∧
    fineY (scrollXIncremented v) = fineY v := by
  by_cases h : coarseX v = 31
  · simp [scrollXIncremented_of_wrap h]
  · simp [scrollXIncremented_of_ne h, withCoarseX]

theorem scrollYIncremented_keeps (v : Loopy) :
    coarseX (scrollYIncremented v) = coarseX v ∧ nametableX (scrollYIncremented v) = nametableX v := by
  have hfine := (fineY v).isLt
  rcases (show (fineY v).toNat < 7 ∨ (fineY v).toNat = 7 by omega) with h | h
  · simp [scrollYIncremented_of_lt h, withFineY]
  · rw [scrollYIncremented_of_seven h]
    split <;> simp

/-- Settles O47, field by field of the incremented registers. -/
theorem scrollIncrementsWrapAndToggle : Obligations.ScrollIncrementsWrapAndToggle := by
  intro p
  refine ⟨scrollIf_frame p _, scrollIf_frame p _, fun hb hs => ?off, fun hr => ?on⟩
  case off =>
    have hoff : p.rendering = false := Bool.or_eq_false_iff.2 ⟨hb, hs⟩
    exact ⟨scrollIf_of_not_rendering hoff _, scrollIf_of_not_rendering hoff _⟩
  case on =>
    have hon : p.rendering = true := Bool.or_eq_true_iff.2 hr
    obtain ⟨hcoarseY, hnametableY, hfineY⟩ := scrollXIncremented_keeps p.v
    obtain ⟨hcoarseX, hnametableX⟩ := scrollYIncremented_keeps p.v
    rw [Ppu.incrementScrollX, Ppu.incrementScrollY, scrollIf_of_rendering hon, scrollIf_of_rendering hon]
    refine ⟨fun h => ?wrapX, fun h => ?stepX, hcoarseY, hnametableY, hfineY, fun h => ?stepFine,
      fun h => ⟨?wrapFine, fun h29 => ?wrapY, fun h31 => ?quirk, fun h29 h31 => ?stepY⟩, hcoarseX, hnametableX⟩
    case wrapX => simp [scrollXIncremented_of_wrap h]
    case stepX =>
      simp only [scrollXIncremented_of_ne h, withCoarseX, coarseX_loopy, nametableX_loopy, and_true]
      bv_omega
    case stepFine =>
      simp only [scrollYIncremented_of_lt h, withFineY, fineY_loopy, coarseY_loopy, nametableY_loopy, and_true]
      bv_omega
    case wrapFine => rw [scrollYIncremented_of_seven h]; split <;> simp
    case wrapY => simp [scrollYIncremented_of_seven h, h29]
    case quirk => simp [scrollYIncremented_of_seven h, h31]
    case stepY =>
      simp only [scrollYIncremented_of_seven h, if_neg h29, if_neg h31, coarseY_loopy, nametableY_loopy, and_true]
      bv_omega

/-! ## The dots of the scroll operations (R330, R334) -/

/-- `q` agrees with `p` on what the scroll operations read. -/
def Ppu.SameScroll (p q : Ppu) : Prop := q.v = p.v ∧ q.t = p.t ∧ q.mask = p.mask

theorem Ppu.SameScroll.trans {p q r : Ppu} (h : Ppu.SameScroll p q) (h' : Ppu.SameScroll q r) :
    Ppu.SameScroll p r :=
  ⟨h'.1.trans h.1, h'.2.1.trans h.2.1, h'.2.2.trans h.2.2⟩

/-- A scroll operation leaves the agreement. -/
theorem Ppu.SameScroll.scrollIf {p q : Ppu} (h : Ppu.SameScroll p q) (f : Loopy → Loopy → Loopy) :
    Ppu.SameScroll (p.scrollIf (f p.v p.t)) (q.scrollIf (f q.v q.t)) := by
  obtain ⟨hv, ht, hm⟩ := h
  have hr : q.rendering = p.rendering := by
    simp only [Ppu.rendering, Ppu.renderBackground, Ppu.renderSprites, hm]
  rw [scrollIf_eq, scrollIf_eq, hv, ht, hr]
  exact ⟨rfl, rfl, hm⟩

/-- The agreement after a step that both make, or neither. -/
theorem Ppu.SameScroll.ite {c : Prop} [Decidable c] {p q p' q' : Ppu} (h : Ppu.SameScroll p q)
    (h' : Ppu.SameScroll p' q') : Ppu.SameScroll (if c then p' else p) (if c then q' else q) := by
  split
  · exact h'
  · exact h

/-- The horizontal increment at key 7 is the fetch windows' only scroll operation (R334, R341). -/
theorem fetchStep_sameScroll (s : State) :
    Ppu.SameScroll (if s.ppu.inFetchWindow = true ∧ s.ppu.dot % 8 = 0 then s.ppu.incrementScrollX else s.ppu)
      s.fetchStep.ppu := by
  unfold State.fetchStep
  by_cases hw : s.ppu.inFetchWindow = true
  case pos =>
    have hkey : s.ppu.dot % 8 = 0 ↔ (s.ppu.dot - 1) % 8 = 7 := by
      rw [Ppu.inFetchWindow, decide_eq_true_iff] at hw
      omega
    rw [if_pos hw, earlyShift_fields, fetchAction_eq]
    simp only [hw, hkey, true_and, Ppu.incrementScrollX, scrollIf_eq, setPpu_ppu]
    split <;> exact ⟨rfl, rfl, rfl⟩
  case neg =>
    rw [if_neg hw, if_neg fun h => hw h.1]
    exact ⟨rfl, rfl, rfl⟩

/-! Each sub-step of the model keeps the agreement with a PPU that makes the same scroll operation. -/

section
variable {p : Ppu} {s : State} (h : Ppu.SameScroll p s.ppu)
include h

theorem Ppu.SameScroll.fetchStep :
    Ppu.SameScroll (if s.ppu.inFetchWindow = true ∧ s.ppu.dot % 8 = 0 then p.incrementScrollX else p)
      s.fetchStep.ppu :=
  (h.ite (h.scrollIf fun v _ => scrollXIncremented v)).trans (fetchStep_sameScroll s)

theorem Ppu.SameScroll.incrementYStep :
    Ppu.SameScroll (if s.ppu.dot = 256 then p.incrementScrollY else p) s.incrementYStep.ppu := by
  rw [State.incrementYStep, apply_ite State.ppu]
  exact h.ite (h.scrollIf fun v _ => scrollYIncremented v)

theorem Ppu.SameScroll.transferXStep :
    Ppu.SameScroll (if s.ppu.dot = 257 then p.transferAddressX else p) s.transferXStep.ppu := by
  rw [State.transferXStep, apply_ite State.ppu]
  exact h.ite (h.scrollIf transferredX)

theorem Ppu.SameScroll.transferYStep :
    Ppu.SameScroll
      (if s.ppu.scanline = -1 ∧ 280 ≤ s.ppu.dot ∧ s.ppu.dot ≤ 304 then p.transferAddressY else p)
      s.transferYStep.ppu := by
  rw [State.transferYStep, apply_ite State.ppu]
  exact h.ite (h.scrollIf transferredY)

end

theorem clearVblankStep_sameScroll (s : State) : Ppu.SameScroll s.ppu s.clearVblankStep.ppu := by
  rw [clearVblankStep_eq]; exact ⟨rfl, rfl, rfl⟩

/-- No sub-step of a dot moves the counters before the dot's end. -/
theorem DotStep.dot {s t : State} (h : DotStep s t) : t.ppu.dot = s.ppu.dot := by rw [h.2]
theorem DotStep.scanline {s t : State} (h : DotStep s t) : t.ppu.scanline = s.ppu.scanline := by rw [h.2]

/-- The scroll operations of a dot of the region, as the sub-steps of the model make them (R330). -/
theorem regionStep_v_of_inRegion {s : State} (h : s.ppu.inRegion = true) :
    s.regionStep.ppu.v =
      let dot := s.ppu.dot
      let p1 := if s.ppu.inFetchWindow = true ∧ dot % 8 = 0 then s.ppu.incrementScrollX else s.ppu
      let p2 := if dot = 256 then p1.incrementScrollY else p1
      let p3 := if dot = 257 then p2.transferAddressX else p2
      let p4 := if s.ppu.scanline = -1 ∧ 280 ≤ dot ∧ dot ≤ 304 then p3.transferAddressY else p3
      p4.v := by
  have hdot0 := dot_clearVblankStep s
  have hdot1 := hdot0.trans (dot_fetchStep _)
  have hdot2 := hdot1.trans (dot_incrementYStep _)
  have hdot3 := hdot2.trans (dot_transferXStep _)
  have hwindow : s.clearVblankStep.ppu.inFetchWindow = s.ppu.inFetchWindow := by
    unfold Ppu.inFetchWindow; rw [hdot0.dot]
  have hscroll :=
    (clearVblankStep_sameScroll s).fetchStep.incrementYStep.transferXStep.transferYStep
  rw [hwindow, hdot0.dot, hdot1.dot, hdot2.dot, hdot3.dot, hdot3.scanline] at hscroll
  rw [State.regionStep, if_pos h]
  exact hscroll.1

/-- Settles O49: outside the region no scroll operation runs; in it those of `regionStep_v_of_inRegion` do. -/
theorem scrollOperationsRunAtTheirDots : Obligations.ScrollOperationsRunAtTheirDots := by
  intro s
  have hregion : decide (-1 ≤ s.ppu.scanline ∧ s.ppu.scanline ≤ 239) = s.ppu.inRegion := rfl
  have hwindow : ((2 ≤ s.ppu.dot ∧ s.ppu.dot ≤ 257) ∨ (321 ≤ s.ppu.dot ∧ s.ppu.dot ≤ 337)) ↔
      s.ppu.inFetchWindow = true := decide_eq_true_iff.symm
  have hclock : s.ppuClock.ppu.v = s.regionStep.ppu.v := by rw [ppuClock_ppu]
  rw [hclock]
  simp only [hregion, hwindow]
  by_cases hr : s.ppu.inRegion = true
  case pos => simp only [regionStep_v_of_inRegion hr, hr, true_and]
  case neg =>
    have hprerender : s.ppu.scanline ≠ -1 := fun h => hr (by simp [Ppu.inRegion, h])
    simp only [State.regionStep, hr, hprerender, Bool.false_eq_true, false_and, if_false]

end Sys2Proof.Machine
end

section
/-! The dot of the PPU outside `v` (51_ppu_rendering.md R330 to R340, R346 to R349): the ports' registers, vertical
blank, the fetch latches, the shift registers and the pixel. -/

namespace Sys2Proof.Machine

/-- Settles O44: a dot is an update of PPU fields, and none of these is among them. -/
theorem aDotKeepsAllThatPortsShowButVAndVerticalBlank :
    Obligations.ADotKeepsAllThatPortsShowButVAndVerticalBlank :=
  fun s => ⟨ppuClock_state s, ppuClock_ctrl s, ppuClock_mask s, ppuClock_t s, ppuClock_fineX s, ppuClock_w s,
    ppuClock_dataBuf s, ppuClock_nt s, ppuClock_pal s, ppuClock_spriteZeroHit s, ppuClock_spriteOverflow s⟩

/-! ## Vertical blank (R333, R346) -/

theorem ppuClock_verticalBlank (s : State) :
    s.ppuClock.ppu.verticalBlank =
      if s.ppu.scanline = 241 ∧ s.ppu.dot = 1 then true else s.regionStep.ppu.verticalBlank := by
  rw [ppuClock_ppu, vblankStep_eq]
  simp only [setPpu_ppu, regionStep_scanline, regionStep_dot]

theorem ppuClock_nmiPending (s : State) :
    s.ppuClock.ppu.nmiPending =
      if s.ppu.scanline = 241 ∧ s.ppu.dot = 1 then s.ppu.nmiPending || s.ppu.enableNmi else s.ppu.nmiPending := by
  rw [ppuClock_ppu, vblankStep_eq]
  simp only [setPpu_ppu, Ppu.enableNmi, regionStep_scanline, regionStep_dot, regionStep_nmiPending, regionStep_ctrl]

/-- Settles O46: the flag is cleared in the region's actions and set after them, at dots of different lines. -/
theorem verticalBlankAndNmiRequest : Obligations.VerticalBlankAndNmiRequest := by
  intro s
  refine ⟨?flag, ?request⟩
  case flag => rw [ppuClock_verticalBlank, regionStep_ppu]
  case request =>
    rw [ppuClock_nmiPending, Ppu.enableNmi]
    by_cases h : s.ppu.scanline = 241 ∧ s.ppu.dot = 1
    · simp [h]
    · rw [if_neg h, decide_eq_false fun hn => h ⟨hn.1, hn.2.1⟩, Bool.or_false]

/-! ## The fetch windows (R331, R332) -/

/-- The fetch windows, in the bounds of R331 and R332. -/
theorem fetches_eq (p : Ppu) :
    p.fetches = decide (-1 ≤ p.scanline ∧ p.scanline ≤ 239 ∧
      ((2 ≤ p.dot ∧ p.dot ≤ 257) ∨ (321 ≤ p.dot ∧ p.dot ≤ 337))) := by
  simp only [Ppu.fetches, Ppu.inRegion, Ppu.inFetchWindow, ← Bool.decide_and, and_assoc]

/-- In a fetch window the key `k` comes at dots congruent to `k + 1` (R334). -/
theorem fetchesAt_iff (p : Ppu) {k : Nat} (hk : k < 7) :
    p.fetchesAt k = true ↔ p.fetches = true ∧ p.dot % 8 = k + 1 := by
  rw [Ppu.fetchesAt, Bool.and_eq_true, decide_eq_true_iff]
  refine and_congr_right fun h => ?_
  have hdot : 2 ≤ p.dot := by
    rw [fetches_eq, decide_eq_true_iff] at h
    omega
  omega

/-! ## The fetch addresses (R336 to R339) -/

theorem tileAddr_eq (v : Loopy) : tileAddr v = BitVec.ofNat 16 (0x2000 + v.toNat % 0x1000) := by
  apply BitVec.eq_of_toNat_eq
  rw [tileAddr, toNat_append_sum, bits_toNat, BitVec.toNat_ofNat, BitVec.toNat_ofNat]
  omega

theorem attributeAddr_eq (v : Loopy) :
    attributeAddr v = BitVec.ofNat 16 (0x23C0 + (nametableY v).toNat * 0x800 + (nametableX v).toNat * 0x400 +
      (coarseY v).toNat / 4 * 8 + (coarseX v).toNat / 4) := by
  apply BitVec.eq_of_toNat_eq
  have hy := (coarseY v).isLt
  have hx := (coarseX v).isLt
  have hny := (nametableY v).isLt
  have hnx := (nametableX v).isLt
  simp only [attributeAddr, toNat_append_sum, bits_toNat, BitVec.toNat_ofNat]
  omega

theorem patternAddr_eq (p : Ppu) (plane : Addr) :
    p.patternAddr plane = BitVec.ofNat 16 ((if p.ctrl.getLsbD 4 then 0x1000 else 0) +
      p.bgNextTileId.toNat * 16 + (fineY p.v).toNat + plane.toNat) := by
  apply BitVec.eq_of_toNat_eq
  simp only [Ppu.patternAddr, Ppu.patternBackground, BitVec.toNat_add, BitVec.toNat_shiftLeft, BitVec.zeroExtend,
    BitVec.toNat_setWidth, BitVec.toNat_ofNat, Nat.shiftLeft_eq]
  cases p.ctrl.getLsbD 4 <;> simp

/-- Bit 1 of a coarse coordinate, the quadrant's side (R337). -/
theorem getLsbD_one_iff {n : Nat} (c : BitVec n) : c.getLsbD 1 = true ↔ c.toNat / 2 % 2 = 1 := by
  rw [BitVec.getLsbD, Nat.testBit_eq_decide_div_mod_eq, decide_eq_true_iff, pow_one]

/-- The quadrant's two bits as a quotient: the shift is 4 in the bottom tile rows and 2 more in the right tile
columns (R337). -/
theorem attributeBits_toNat (v : Loopy) (a : Byte) :
    (attributeBits v a).toNat = a.toNat / 2 ^ ((if (coarseY v).toNat / 2 % 2 = 1 then 4 else 0) +
      (if (coarseX v).toNat / 2 % 2 = 1 then 2 else 0)) % 4 := by
  have hmask (b : Byte) : (b &&& 0x03).toNat = b.toNat % 4 := Nat.and_two_pow_sub_one_eq_mod b.toNat 2
  have hshift (b : Byte) (n : Nat) (c : Prop) [Decidable c] :
      (if c then b >>> n else b).toNat = b.toNat / 2 ^ (if c then n else 0) := by
    split
    · rw [BitVec.toNat_ushiftRight, Nat.shiftRight_eq_div_pow]
    · rw [pow_zero, Nat.div_one]
  simp only [attributeBits, hmask, hshift, getLsbD_one_iff, Nat.div_div_eq_div_mul, ← pow_add]

/-! ## The fetch latches (R336 to R339) -/

theorem ppuClock_bgNextTileId (s : State) :
    s.ppuClock.ppu.bgNextTileId =
      if s.ppu.fetchesAt 0 then s.ppuRead (tileAddr s.ppu.v) else s.ppu.bgNextTileId := by
  rw [ppuClock_ppu, regionStep_ppu]

theorem ppuClock_bgNextTileAttrib (s : State) :
    s.ppuClock.ppu.bgNextTileAttrib =
      if s.ppu.fetchesAt 2 then attributeBits s.ppu.v (s.ppuRead (attributeAddr s.ppu.v))
      else s.ppu.bgNextTileAttrib := by
  rw [ppuClock_ppu, regionStep_ppu]

theorem ppuClock_bgNextTileLsb (s : State) :
    s.ppuClock.ppu.bgNextTileLsb =
      if s.ppu.fetchesAt 4 then s.ppuRead (s.ppu.patternAddr 0) else s.ppu.bgNextTileLsb := by
  rw [ppuClock_ppu, regionStep_ppu]

theorem ppuClock_bgNextTileMsb (s : State) :
    s.ppuClock.ppu.bgNextTileMsb =
      if s.ppu.fetchesAt 6 then s.ppuRead (s.ppu.patternAddr 8) else s.ppu.bgNextTileMsb := by
  rw [ppuClock_ppu, regionStep_ppu]

/-- Settles O50: each latch loads at its key, from its address as a number. -/
theorem fetchLatchesLoadAtTheirDots : Obligations.FetchLatchesLoadAtTheirDots := by
  intro s
  simp only [← fetches_eq]
  rw [ppuClock_bgNextTileId, ppuClock_bgNextTileAttrib, ppuClock_bgNextTileLsb, ppuClock_bgNextTileMsb]
  simp only [fetchesAt_iff s.ppu (show 0 < 7 by decide), fetchesAt_iff s.ppu (show 2 < 7 by decide),
    fetchesAt_iff s.ppu (show 4 < 7 by decide), fetchesAt_iff s.ppu (show 6 < 7 by decide),
    apply_ite BitVec.toNat, attributeBits_toNat, tileAddr_eq, attributeAddr_eq, patternAddr_eq]
  exact ⟨trivial, trivial, rfl, rfl⟩

/-! ## The shift registers (R335, R348) -/

theorem shiftLeft_one_toNat (r : BitVec 16) : (r <<< 1).toNat = r.toNat * 2 % 65536 := by
  rw [BitVec.toNat_shiftLeft, Nat.shiftLeft_eq]

theorem loadLow_toNat (r : BitVec 16) (b : Byte) : (loadLow r b).toNat = r.toNat / 256 * 256 + b.toNat := by
  have := r.isLt
  rw [loadLow, toNat_append_sum, bits_toNat]
  omega

theorem eightOf_toNat (b : Bool) : (eightOf b).toNat = if b then 255 else 0 := by cases b <;> rfl

/-- The number in a shift register after a dot in which `b` is the byte to load (R335, R348). -/
theorem lateShifted_loaded_toNat (s : State) (r : BitVec 16) (b : Byte) :
    (s.regionStep.lateShifted (s.loaded r b)).toNat =
      let early := if s.cfg.ppuShiftEveryDot = false ∧ s.ppu.fetches ∧ s.ppu.mask.getLsbD 3
        then r.toNat * 2 % 65536 else r.toNat
      let loaded := if s.ppu.fetches ∧ s.ppu.dot % 8 = 1 then early / 256 * 256 + b.toNat else early
      if s.cfg.ppuShiftEveryDot = true ∧ s.ppu.mask.getLsbD 3 then loaded * 2 % 65536 else loaded := by
  have hlate (q : BitVec 16) : (s.regionStep.lateShifted q).toNat =
      if s.cfg.ppuShiftEveryDot = true ∧ s.ppu.mask.getLsbD 3 then q.toNat * 2 % 65536 else q.toNat := by
    simp only [State.lateShifted, Ppu.renderBackground, regionStep_cfg, regionStep_mask, apply_ite BitVec.toNat,
      shiftLeft_one_toNat]
  have hearly : (s.earlyShifted r).toNat =
      if s.cfg.ppuShiftEveryDot = false ∧ s.ppu.mask.getLsbD 3 then r.toNat * 2 % 65536 else r.toNat := by
    rw [State.earlyShifted, Ppu.renderBackground, apply_ite BitVec.toNat, shiftLeft_one_toNat]
  rw [hlate]
  simp only [State.loaded, apply_ite BitVec.toNat, loadLow_toNat, hearly,
    fetchesAt_iff s.ppu (show 0 < 7 by decide)]
  cases s.ppu.fetches <;> simp

/-- Settles O51: the four registers differ in the byte they load only. -/
theorem shiftRegistersLoadAndShift : Obligations.ShiftRegistersLoadAndShift := by
  intro s
  simp only [← fetches_eq, ← eightOf_toNat]
  rw [ppuClock_ppu, regionStep_ppu]
  exact ⟨lateShifted_loaded_toNat s _ _, lateShifted_loaded_toNat s _ _, lateShifted_loaded_toNat s _ _,
    lateShifted_loaded_toNat s _ _⟩

/-! ## The compositor (R347, R349) -/

/-- The palette entry as the sum of its four bits. -/
theorem pixelEntry_toNat (p : Ppu) :
    p.pixelEntry.toNat = if p.mask.getLsbD 3 then
        8 * (if p.sample p.bgShifterAttribHi then 1 else 0) + 4 * (if p.sample p.bgShifterAttribLo then 1 else 0) +
          2 * (if p.sample p.bgShifterPatternHi then 1 else 0) + (if p.sample p.bgShifterPatternLo then 1 else 0)
      else 0 := by
  have hbit (b : Bool) : (BitVec.ofBool b).toNat = if b then 1 else 0 := by cases b <;> rfl
  rw [Ppu.pixelEntry, Ppu.renderBackground, apply_ite BitVec.toNat, toNat_append_sum, toNat_append_sum,
    toNat_append_sum, hbit, hbit, hbit, hbit]
  congr 1
  omega

theorem pixelColour_toNat (s : State) :
    s.pixelColour.toNat = (s.ppuRead (BitVec.ofNat 16 (0x3F00 + s.ppu.pixelEntry.toNat))).toNat % 64 := by
  have haddr : 0x3F0#12 ++ s.ppu.pixelEntry = BitVec.ofNat 16 (0x3F00 + s.ppu.pixelEntry.toNat) := by
    have := s.ppu.pixelEntry.isLt
    apply BitVec.eq_of_toNat_eq
    rw [toNat_append_sum, BitVec.toNat_ofNat, BitVec.toNat_ofNat]
    omega
  rw [State.pixelColour, haddr, BitVec.truncate_eq_setWidth, BitVec.toNat_setWidth]

/-- On the screen one pixel has one cell of the framebuffer (R50). -/
theorem fbIndex_inj {x y x' y' : Nat} (hx : x < 256) (hx' : x' < 256) :
    fbIndex x' y' = fbIndex x y ↔ x' = x ∧ y' = y := by
  unfold fbIndex
  omega

/-- The framebuffer after the dot holds the colour at the dot's pixel, and the old colours elsewhere (R349). -/
theorem read_fbAfter (s : State) {x y : Nat} (hx : x < 256) (hy : y < 240) :
    Cells.read s.fbAfter (fbIndex x y) =
      if s.ppu.dot = x + 1 ∧ s.ppu.scanline = y then s.pixelColour else s.pixel x y := by
  unfold State.fbAfter
  split
  next hscreen =>
    rw [read_write]
    refine if_congr ((fbIndex_inj hx (by omega)).trans ?_) rfl rfl
    omega
  next hoff => rw [if_neg (by omega), State.pixel]

/-- The pixel that a dot writes has the colour that the region's actions lead to (R347, R349). -/
theorem ppuClock_pixel (s : State) {x y : Nat} (hx : x < 256) (hy : y < 240) :
    s.ppuClock.pixel x y =
      if s.ppu.dot = x + 1 ∧ s.ppu.scanline = y then s.regionStep.pixelColour else s.pixel x y := by
  have hcolour : s.regionStep.vblankStep.pixelColour = s.regionStep.pixelColour := by rw [vblankStep_eq]; rfl
  have hdot : s.regionStep.vblankStep.ppu.dot = s.ppu.dot := by rw [vblankStep_eq]; exact regionStep_dot s
  have hline : s.regionStep.vblankStep.ppu.scanline = s.ppu.scanline := by
    rw [vblankStep_eq]; exact regionStep_scanline s
  rw [State.pixel, ppuClock_ppu]
  simp only [read_fbAfter _ hx hy, hcolour, hdot, hline, State.pixel, regionStep_fb]

/-- The actions of the region leave PPU memory alone. -/
theorem ppuRead_regionStep (s : State) (a : Addr) : s.regionStep.ppuRead a = s.ppuRead a := by
  rw [(dot_regionStep s).1]
  exact ppuRead_setPpu s _ a (by rw [regionStep_ppu]) (by rw [regionStep_ppu])

/-- Settles O52: the colour is read from PPU memory as the dot found it, at the entry the region's actions lead
to. -/
theorem theCompositorWritesOnePixel : Obligations.TheCompositorWritesOnePixel := by
  intro s
  dsimp only
  intro x y hx hy
  rw [ppuClock_pixel s hx hy, apply_ite BitVec.toNat, pixelColour_toNat, ppuRead_regionStep, pixelEntry_toNat,
    regionStep_mask]
  simp only [Ppu.sample, regionStep_fineX]

end Sys2Proof.Machine
end

section
/-! SUPPORT. Interrupt entry, the return from it, and reset (60_exceptions.md R403 to R411,
70_reset_and_hazards.md R430). -/

namespace Sys2Proof.Machine

/-! ## Entry (R406) -/

/-- The status that an interrupt entry pushes and leaves: B cleared, U and I set. -/
def entryStatus (p : Byte) : Byte := withFlag .I true (withFlag .U true (withFlag .B false p))

theorem setFlag_entryStatus (s : State) :
    ((s.setFlag .B false).setFlag .U true).setFlag .I true = s.setP (entryStatus s.cpu.p) := rfl

theorem flagOf_entryStatus (p : Byte) (f : Flag) :
    flagOf f (entryStatus p) = if f = .B then false else if f = .U ∨ f = .I then true else flagOf f p := by
  rw [entryStatus, flagOf_withFlag, flagOf_withFlag, flagOf_withFlag]
  cases f <;> rfl

/-- The machine after the three pushes of an interrupt entry. -/
def State.entryPushed (s : State) : State :=
  ((s.push16 s.cpu.pc).setP (entryStatus s.cpu.p)).push (entryStatus s.cpu.p)

theorem entryPushed_cpu (s : State) :
    s.entryPushed.cpu = { s.cpu with s := s.cpu.s - 1 - 1 - 1, p := entryStatus s.cpu.p } := by
  rw [State.entryPushed, push_eq, push16_eq]; rfl

theorem entryPushed_withCpu_setRam (s : State) :
    s.entryPushed = (s.setRam s.entryPushed.ram).withCpu s.entryPushed.cpu := by
  simp only [State.entryPushed, push_eq, push16_eq]; rfl

theorem pushed_entryPushed (s : State) :
    Pushed [highByte s.cpu.pc, lowByte s.cpu.pc, entryStatus s.cpu.p] s s.entryPushed :=
  ((pushed_push16 s s.cpu.pc).withCpu (c := s.cpu)
    (d := { (s.push16 s.cpu.pc).cpu with p := entryStatus s.cpu.p }) rfl rfl).push (show 2 < 256 by decide) _

/-- An entry through a vector in program ROM, which no push reaches: the pushes, the vector's word, the cycles. -/
theorem interruptEntry_eq_entryPushed (s : State) {v : Addr} (n : Nat) (h : 0x8000 ≤ v.toNat)
    (h' : 0x8000 ≤ (v + 1).toNat) :
    s.interruptEntry v n = (s.entryPushed.setPc (wordOf (s.peek v) (s.peek (v + 1)))).setCountdown n := by
  rw [← (pushed_entryPushed s).peek_rom h, ← (pushed_entryPushed s).peek_rom h', interruptEntry_eq s v n h h']
  simp only [setFlag_entryStatus, setP_p, push16_cpu]
  rfl

/-- An interrupt entry changes CPU registers and the stack page. -/
theorem entered_interruptEntry (s : State) {v : Addr} (n : Nat) (h : 0x8000 ≤ v.toNat)
    (h' : 0x8000 ≤ (v + 1).toNat) : Entered v n s (s.interruptEntry v n) := by
  rw [interruptEntry_eq_entryPushed s n h h']
  have hp : s.entryPushed.cpu.p = entryStatus s.cpu.p := by rw [entryPushed_cpu]
  refine ⟨?pushed, fun f => ?flags, wordOf_peek_toNat s v, rfl, ?cpu, ?rest⟩
  case pushed =>
    rw [setCountdown_p, setPc_p, hp]
    exact (pushed_entryPushed s).withCpu (c := s.cpu) rfl rfl
  case flags =>
    rw [State.flag, setCountdown_p, setPc_p, hp, flagOf_entryStatus]; rfl
  case cpu => rw [setCountdown_eq, setPc_eq, withCpu_cpu, withCpu_cpu, entryPushed_cpu]
  case rest => rw [entryPushed_withCpu_setRam]; rfl

/-- Settles O38: both are the entry of R406, through a vector in program ROM; the IRQ asks for I first. -/
theorem nmiAndIrqEnterThroughTheirVectors : Obligations.NmiAndIrqEnterThroughTheirVectors := by
  intro s
  refine ⟨entered_interruptEntry s 8 (by decide) (by decide), fun hI => if_pos hI, fun hI => ?_⟩
  rw [State.interrupt, hI]
  exact entered_interruptEntry s 7 (by decide) (by decide)

/-! ## Return (R411) -/

/-- The machine is back where it was in `s`, with the stack pointer and every flag but I, B, U as there; I is set. -/
def Resumed (s u : State) : Prop :=
  u.cpu.pc = s.cpu.pc ∧ u.cpu.s = s.cpu.s ∧ u.flag .I = true ∧ u.flag .B = false ∧
  ∀ f, f ≠ .I → f ≠ .B → f ≠ .U → u.flag f = s.flag f

/-- RTI from a handler whose entry has pushed `PC` and a status with I set: its three pulls find the pushed bytes. -/
theorem completes_rti_of_pushed {s e : State} {p : Byte}
    (hpushed : Pushed [highByte s.cpu.pc, lowByte s.cpu.pc, p] s e) (hI : flagOf .I p = true)
    (hp : ∀ f, f ≠ .I → f ≠ .B → f ≠ .U → flagOf f p = s.flag f) :
    Completes .rti e (Resumed s) := by
  have hstatus : e.stackByte 1 = p := hpushed.stackByte (k := 2) rfl
  have hlow : e.stackByte 2 = lowByte s.cpu.pc := hpushed.stackByte (k := 1) rfl
  have hhigh : e.stackByte 3 = highByte s.cpu.pc := hpushed.stackByte (k := 0) rfl
  refine (completes_rti e).mono fun u ⟨hflags, hpc, hsp, _⟩ => ?_
  rw [hstatus] at hflags
  refine ⟨?pc, ?pointer, (hflags .I).trans hI, hflags .B, fun f hfI hfB hfU => ?flags⟩
  case pc => rw [hpc, hlow, hhigh, wordOf_low_high]
  case pointer => rw [hsp, hpushed.pointer]; exact sub_add_cancel _ _
  case flags => rw [hflags f, if_neg hfB, if_neg hfU, hp f hfI hfB hfU]

theorem completes_rti_of_entered {v : Addr} {n : Nat} {s e : State} (h : Entered v n s e) :
    Completes .rti e (Resumed s) := by
  refine completes_rti_of_pushed h.pushed (h.flags .I) fun f hI hB hU => (h.flags f).trans ?_
  rw [if_neg hB, if_neg (by simp [hU, hI])]

/-- Settles O41: each of the three entries pushes `PC` and a status with I set, which RTI finds. -/
theorem rtiAfterEntryReturnsWithInterruptsDisabled : Obligations.RtiAfterEntryReturnsWithInterruptsDisabled := by
  intro s
  obtain ⟨hnmi, -, hirq⟩ := nmiAndIrqEnterThroughTheirVectors s
  refine ⟨?interrupt, fun htwo => ?brk⟩
  case interrupt =>
    rintro e (rfl | ⟨hI, rfl⟩)
    · exact completes_rti_of_entered hnmi
    · exact completes_rti_of_entered (hirq hI)
  case brk =>
    refine (completes_brk s).mono fun e ⟨hpushed, _⟩ => ?_
    rw [htwo, show brkExtra .two = 0 from rfl, add_zero] at hpushed
    refine completes_rti_of_pushed hpushed (flagOf_brkStatus s.cpu.p .I) fun f hI hB hU =>
      (flagOf_brkStatus s.cpu.p f).trans ?_
    rw [if_neg (by simp [hI, hB, hU])]; rfl

/-! ## Reset (R430) -/

/-- Settles O42: a reset writes CPU registers and the tick counter, and reads the vector's word in program ROM. -/
theorem resetLeavesTheSpecifiedState : Obligations.ResetLeavesTheSpecifiedState := by
  intro s
  rw [busReset_eq]
  exact ⟨rfl, rfl, rfl, rfl, rfl, wordOf_peek_toNat s resetVector, rfl, rfl, rfl, rfl, rfl, rfl, rfl, rfl, rfl,
    rfl, rfl⟩

end Sys2Proof.Machine
end

section
/-! SUPPORT. The bus tick (52_system_clock.md R370 to R376): what the CPU's part of it does by the tick counter and
the countdown, and what its end does by the NMI request. -/

namespace Sys2Proof.Machine

/-! ## The CPU's part (R371, R373) -/

theorem cpuPart_of_no_clock {s : State} (h : s.sysCounter % 3 ≠ 0) : cpuPart s = .next s := if_neg h

theorem cpuPart_of_countdown {s : State} (h : s.sysCounter % 3 = 0) (hc : s.cpu.countdown ≠ 0) :
    cpuPart s = .next s.countClock := by
  rw [cpuPart, if_pos h, cpuClock, if_neg hc]

theorem cpuPart_of_fetch {s : State} (h : s.sysCounter % 3 = 0) (hc : s.cpu.countdown = 0) :
    cpuPart s = onNext (executeInstruction s) State.countClock := by
  rw [cpuPart, if_pos h, cpuClock, if_pos hc]

theorem step_of_cpuPart {s u : State} (h : cpuPart s.ppuClock = .next u) : step s = .next u.endTick := by
  rw [step, busClock, h]; rfl

/-! ## The end of the tick (R376) -/

theorem endTick_of_not_pending {s : State} (h : s.ppu.nmiPending = false) :
    s.endTick = s.setSysCounter (s.sysCounter + 1) := by
  rw [State.endTick, State.deliverNmi, h]; rfl

theorem endTick_of_pending {s : State} (h : s.ppu.nmiPending = true) :
    s.endTick =
      ((s.setPpu { s.ppu with nmiPending := false }).nonMaskableInterrupt).setSysCounter (s.sysCounter + 1) := by
  rw [State.endTick, State.deliverNmi, if_pos h]

@[simp] theorem endTick_sysCounter (s : State) : s.endTick.sysCounter = s.sysCounter + 1 := rfl

@[simp] theorem endTick_cfg (s : State) : s.endTick.cfg = s.cfg := by
  cases h : s.ppu.nmiPending with
  | false => rw [endTick_of_not_pending h]; rfl
  | true =>
    rw [endTick_of_pending h]
    exact (Effects.refl (s.setPpu { s.ppu with nmiPending := false })).nonMaskableInterrupt.cfg

/-- Settles O53: the CPU's part of every tick answers, and the end of the tick counts it. -/
theorem everyStepHasANextState : Obligations.EveryStepHasANextState := by
  intro s
  obtain ⟨u, hu, e⟩ := cpuPart_effects s.ppuClock
  refine ⟨u.endTick, step_of_cpuPart hu, ?counter, ?cfg⟩
  case counter => rw [endTick_sysCounter, e.sysCounter, ppuClock_sysCounter]
  case cfg => rw [endTick_cfg, e.cfg, ppuClock_cfg]

/-- Where no NMI request was pending, only the dot of scanline 241, dot 1 can leave one (R346). -/
theorem ppuClock_not_pending {s : State} (hn : s.ppu.nmiPending = false)
    (hd : ¬ (s.ppu.scanline = 241 ∧ s.ppu.dot = 1 ∧ s.ppu.ctrl.getLsbD 7 = true)) :
    s.ppuClock.ppu.nmiPending = false := by
  rw [(verticalBlankAndNmiRequest s).2, hn, decide_eq_false hd]; rfl

/-- Settles O55: without a request the end of the tick only counts, and the dot changes the PPU only. -/
theorem aStepWithoutAFetchOnlyCounts : Obligations.AStepWithoutAFetchOnlyCounts := by
  intro s hn hd
  have hp := ppuClock_not_pending hn hd
  have hdot := ppuClock_state s
  refine ⟨fun h => ?idle, fun h hc => ?count⟩
  case idle =>
    rw [step_of_cpuPart (cpuPart_of_no_clock (by rwa [ppuClock_sysCounter])), endTick_of_not_pending hp]
    generalize s.ppuClock.ppu = p at hdot ⊢
    rw [hdot]; rfl
  case count =>
    rw [step_of_cpuPart (cpuPart_of_countdown (by rwa [ppuClock_sysCounter]) (by rwa [ppuClock_cpu])),
      endTick_of_not_pending (s := s.ppuClock.countClock) hp]
    generalize s.ppuClock.ppu = p at hdot ⊢
    rw [hdot]; rfl

/-! ## NMI delivery (R376) -/

theorem peek_rom_setSysCounter (s : State) (n : Nat) {a : Addr} (h : 0x8000 ≤ a.toNat) :
    (s.setSysCounter n).peek a = s.peek a := by
  rw [State.peek, State.peek, busRead_high _ _ h, busRead_high _ _ h]; rfl

theorem entryPushed_setSysCounter (s : State) (n : Nat) :
    (s.setSysCounter n).entryPushed = s.entryPushed.setSysCounter n := by
  simp only [State.entryPushed, push_eq, push16_eq]; rfl

/-- The entry does not see the tick counter, so the tick may be counted before it. -/
theorem nonMaskableInterrupt_setSysCounter (s : State) (n : Nat) :
    (s.setSysCounter n).nonMaskableInterrupt = s.nonMaskableInterrupt.setSysCounter n := by
  have hv : 0x8000 ≤ nmiVector.toNat := by decide
  have hv' : 0x8000 ≤ (nmiVector + 1).toNat := by decide
  simp only [State.nonMaskableInterrupt, interruptEntry_eq_entryPushed _ 8 hv hv', entryPushed_setSysCounter,
    peek_rom_setSysCounter s n hv, peek_rom_setSysCounter s n hv']
  rfl

/-- Settles O56: the dot requests the NMI, the CPU's part leaves the request standing, the end of the tick takes
it. -/
theorem theNmiIsDeliveredInItsTick : Obligations.TheNmiIsDeliveredInItsTick := by
  intro s hline hdot hen
  obtain ⟨u, hu, e⟩ := cpuPart_effects s.ppuClock
  have hp : u.ppu.nmiPending = true := by
    rw [e.nmiPending, (verticalBlankAndNmiRequest s).2, decide_eq_true ⟨hline, hdot, hen⟩, Bool.or_true]
  refine ⟨u, u.endTick, hu, step_of_cpuPart hu, ?_⟩
  rw [endTick_of_pending hp, e.sysCounter, ppuClock_sysCounter, ← nonMaskableInterrupt_setSysCounter]
  exact (nmiAndIrqEnterThroughTheirVectors _).1

end Sys2Proof.Machine
end

section
/-! SUPPORT. The instruction that a fetch decodes (30_encoding.md R132): the bus reads of its bytes, against the
decoder on the bytes that they give. -/

namespace Sys2Proof.Machine

theorem operandBytes_cases (m : Mode) : m.operandBytes = 0 ∨ m.operandBytes = 1 ∨ m.operandBytes = 2 := by
  have := operandBytes_le_two m
  omega

/-! ## Decoding the bytes at `PC` -/

theorem unreadOperandOf_eq_pad_iff (m : Mode) (b1 b2 : Byte) : unreadOperandOf m b1 b2 = .pad ↔ m = .IMM := by
  cases m <;> simp [unreadOperandOf, operandOf]

/-- The table entry of every byte builds an operand that is skipped exactly in mode IMM without a read (R151). -/
theorem descriptor_operand_pad_iff (c : Config) (op b1 b2 : Byte) :
    ((descriptor c op).build b1 b2).operand = .pad ↔
      (descriptor c op).mode = .IMM ∧ (descriptor c op).readsImm = false := by
  cases hc : cellOf officialMatrix op with
  | some d =>
    rw [descriptor_of_cell c op d hc]
    exact (cellOk_of_cell op d hc).reads b1 b2
  | none =>
    rw [descriptor_of_no_cell c op hc]
    obtain ⟨k, m, base⟩ := c.unofficialEntry op
    have hpad := (unreadOperandOf_eq_pad_iff m b1 b2).trans (and_iff_left (rfl : false = false)).symm
    cases k with
    | xxx => exact hpad
    | nop => exact hpad

/-- What a table entry builds does not depend on the byte that it skips. -/
theorem build_of_pad {c : Config} {op b1 b2 : Byte} (h : ((descriptor c op).build b1 b2).operand = .pad) :
    (descriptor c op).build 0 0 = (descriptor c op).build b1 b2 := by
  have hbuild := (describes_of_opcodeIn c _ op ((descriptor_ok c op).opcode b1 b2)).build
  rwa [h] at hbuild

/-- An opcode byte and two bytes decode to what the table entry builds of as many of the two as its mode has. -/
theorem eq_build_of_decodeIn {c : Config} {op b1 b2 : Byte} {i : Instr} {left : List Byte}
    (h : decodeIn c [op, b1, b2] = .ok (i, left)) :
    i = (descriptor c op).build (if (descriptor c op).mode.operandBytes = 0 then 0 else b1)
      (if (descriptor c op).mode.operandBytes ≤ 1 then 0 else b2) := by
  have hbuild (bs rest : List Byte) (hb : bs ++ rest = [b1, b2])
      (hlen : bs.length = (descriptor c op).mode.operandBytes) :
      i = (descriptor c op).build (bs.getD 0 0) (bs.getD 1 0) := by
    have happend := decodeIn_append c op bs rest hlen
    rw [hb, h] at happend
    exact congrArg Prod.fst (Except.ok.inj happend)
  obtain hn | hn | hn := operandBytes_cases (descriptor c op).mode
  · rw [hn]; exact hbuild [] [b1, b2] rfl hn.symm
  · rw [hn]; exact hbuild [b1] [b2] rfl hn.symm
  · rw [hn]; exact hbuild [b1, b2] [] rfl hn.symm

theorem mode_of_decodeIn {c : Config} {op b1 b2 : Byte} {i : Instr} {left : List Byte}
    (h : decodeIn c [op, b1, b2] = .ok (i, left)) : (descriptor c op).mode = i.operand.mode := by
  rw [eq_build_of_decodeIn h, (descriptor_ok c op).mode]

/-! ## Reading them -/

/-- One byte of an instruction: a bus read at `PC`, and `PC` past it (R113). -/
theorem nextByte_setPc (s : State) (a : Addr) :
    (s.setPc a).nextByte = ((s.busRead a).1, (s.busRead a).2.setPc (a + 1)) := by
  simp only [State.nextByte, setPc_eq, busRead_withCpu, withCpu_cpu, withCpu_withCpu, busRead_cpu]

/-- A skipped operand byte is passed over, not read (R151). -/
theorem fetchOperands_of_skip {s : State} {d : Descriptor} (h : d.mode = .IMM ∧ d.readsImm = false) (a : Addr) :
    (s.setPc a).fetchOperands d = (d.build 0 0, s.setPc (a + 1)) := if_pos h

/-- Operand bytes that are read: as many as the mode has, one after the other (R121). -/
theorem fetchOperands_of_read {s : State} {d : Descriptor} (h : ¬ (d.mode = .IMM ∧ d.readsImm = false)) (a : Addr) :
    let b1 := s.busRead a
    let b2 := b1.2.busRead (a + 1)
    let n := d.mode.operandBytes
    (s.setPc a).fetchOperands d =
      (d.build (if n = 0 then 0 else b1.1) (if n ≤ 1 then 0 else b2.1),
        (if n = 0 then s else if n = 1 then b1.2 else b2.2).setPc (a + BitVec.ofNat 16 n)) := by
  unfold State.fetchOperands
  simp only [if_neg h, nextByte_setPc]
  obtain hn | hn | hn := operandBytes_cases d.mode
  · simp [hn]
  · simp [hn]
  · simp [hn, add_assoc]

/-- The operands of the instruction that the bytes at `a` decode to are fetched as its mode says. -/
theorem fetchOperands_of_decodeIn {s : State} {op : Byte} {a : Addr} {i : Instr} {left : List Byte}
    (h : decodeIn s.cfg [op, (s.busRead a).1, ((s.busRead a).2.busRead (a + 1)).1] = .ok (i, left)) :
    let n := i.operand.mode.operandBytes
    (s.setPc a).fetchOperands (descriptor s.cfg op) =
      (i, (if n = 0 ∨ i.operand = .pad then s else if n = 1 then (s.busRead a).2
        else ((s.busRead a).2.busRead (a + 1)).2).setPc (a + BitVec.ofNat 16 n)) := by
  intro n
  have hi := eq_build_of_decodeIn h
  have hpad : i.operand = .pad ↔ (descriptor s.cfg op).mode = .IMM ∧ (descriptor s.cfg op).readsImm = false :=
    hi ▸ descriptor_operand_pad_iff s.cfg op _ _
  by_cases hp : i.operand = .pad
  · have hbuild : (descriptor s.cfg op).build 0 0 = i := by rw [hi] at hp ⊢; exact build_of_pad hp
    have hn : n = 1 := congrArg (fun o => o.mode.operandBytes) hp
    rw [fetchOperands_of_skip (hpad.1 hp), hbuild, if_pos (.inr hp), hn]
    rfl
  · rw [fetchOperands_of_read (mt hpad.2 hp), ← hi, mode_of_decodeIn h, if_congr (or_iff_left hp) rfl rfl]

/-- The CPU with the opcode byte recorded: U set, the byte, its mode (R132). -/
def Cpu.decoded (c : Cpu) (op : Byte) (m : Mode) : Cpu :=
  { c with p := withFlag .U true c.p, opcode := op, mode := m }

theorem setPc_decoded (s : State) (a : Addr) (op : Byte) (m : Mode) :
    (((s.setPc a).setFlag .U true).setOpcode op).setMode m = (s.withCpu (s.cpu.decoded op m)).setPc a := rfl

/-- The opcode byte is read at `PC` and recorded, then its operand bytes are fetched (R132). -/
theorem fetchInstr_eq (s : State) :
    let r := s.busRead s.cpu.pc
    let d := descriptor s.cfg r.1
    s.fetchInstr = ((r.2.withCpu (s.cpu.decoded r.1 d.mode)).setPc (s.cpu.pc + 1)).fetchOperands d := by
  have hread := setPc_decoded (s.busRead s.cpu.pc).2 (s.cpu.pc + 1) (s.busRead s.cpu.pc).1
    (descriptor s.cfg (s.busRead s.cpu.pc).1).mode
  rw [busRead_cpu] at hread
  exact congrArg (State.fetchOperands · _) hread

/-- The fetch of the instruction that the bytes at `PC` decode to (R132). -/
theorem fetchInstr_of_decodeIn {s : State} {c : Config} {pc : Addr} {i : Instr} {left : List Byte} (hc : s.cfg = c)
    (hpc : s.cpu.pc = pc) :
    let r0 := s.busRead pc
    let r1 := r0.2.busRead (pc + 1)
    let r2 := r1.2.busRead (pc + 2)
    decodeIn c [r0.1, r1.1, r2.1] = .ok (i, left) →
    let n := i.operand.mode.operandBytes
    let afterReads := if n = 0 ∨ i.operand = .pad then r0.2 else if n = 1 then r1.2 else r2.2
    s.fetchInstr = (i, (((afterReads.setPc (pc + 1 + BitVec.ofNat 16 n)).setFlag .U true).setOpcode r0.1).setMode
      i.operand.mode) := by
  subst hc hpc
  intro r0 r1 r2 h n afterReads
  let c := s.cpu.decoded r0.1 i.operand.mode
  have hcfg : (r0.2.withCpu c).cfg = s.cfg := busRead_cfg s _
  have hfirst : (r0.2.withCpu c).busRead (s.cpu.pc + 1) = (r1.1, r1.2.withCpu c) := busRead_withCpu _ _ _
  have hsecond : (r1.2.withCpu c).busRead (s.cpu.pc + 1 + 1) = (r2.1, r2.2.withCpu c) := by
    rw [add_assoc]; exact busRead_withCpu _ _ _
  have hops := fetchOperands_of_decodeIn (s := r0.2.withCpu c) (op := r0.1) (a := s.cpu.pc + 1)
    (i := i) (left := left) (by rw [hfirst, hsecond, hcfg]; exact h)
  have hcpu : afterReads.cpu = s.cpu := by
    simp only [afterReads, r2, r1, r0, apply_ite State.cpu, busRead_cpu, ite_self]
  rw [hfirst, hsecond, hcfg] at hops
  rw [fetchInstr_eq, mode_of_decodeIn h, hops, setPc_decoded, hcpu, apply_ite (State.withCpu · c),
    apply_ite (State.withCpu · c)]

/-! ## The step that fetches -/

theorem onNext_onNext (r : Result) (f g : State → State) : onNext (onNext r f) g = onNext r fun t => g (f t) := by
  cases r <;> rfl

/-- Settles O54: the tick's dot leaves the CPU and the launch constants alone, and the fetch from the state after it
is the decoded instruction. -/
theorem aStepRunsTheDecodedInstruction : Obligations.AStepRunsTheDecodedInstruction := by
  intro s i left hcount hclock pc r0 r1 r2 h n afterReads u
  have hpc : s.ppuClock.cpu.pc = pc := by rw [ppuClock_cpu]
  have hfetch : s.ppuClock.fetchInstr = (i, u) := fetchInstr_of_decodeIn (ppuClock_cfg s) hpc h
  rw [step, busClock, cpuPart_of_fetch (by rwa [ppuClock_sysCounter]) (by rwa [ppuClock_cpu]), executeInstruction,
    hfetch, onNext_onNext]

end Sys2Proof.Machine
end
